-- ==== Sys2Proof/Word.lean ====
section
/-!
DEFINITION. The word types of the machine (spec/00_scope.md R7): the data unit is one 8-bit byte, an address is
16 bits. The bit-field and byte-order helpers are in Machine/Bits.lean.
-/

namespace Sys2Proof

/-- The data unit: one 8-bit byte (R7). -/
abbrev Byte := BitVec 8

/-- A 16-bit address, or any 16-bit word made of two bytes (R7). -/
abbrev Addr := BitVec 16

end Sys2Proof
end

