-- ==== Sys2Proof/Machine/Bits.lean ====
section
/-!
DEFINITION. The bit-field, extension and byte-order helpers of spec/00_scope.md R9, R10 and R12.
-/

namespace Sys2Proof

/-- `zext_16(b)`: the 16-bit word with the value of `b` (R10). -/
def zext16 (b : Byte) : Addr := b.setWidth 16

/-- `sext_16(b)`: the byte read as two's complement, in 16 bits (R10). -/
def sext16 (b : Byte) : Addr := b.signExtend 16

/-- `hi ++ lo`: the 16-bit word `hi * 256 + lo` (R10). -/
def joinBytes (hi lo : Byte) : Addr := hi ++ lo

/-- `w[15:8]` (R9). -/
def hiByte (w : Addr) : Byte := w.extractLsb' 8 8

/-- `w[7:0]` (R9). -/
def loByte (w : Addr) : Byte := w.extractLsb' 0 8

/-- A flag as a 0/1 byte (R11). -/
def flagByte (f : Bool) : Byte := if f then 1 else 0

end Sys2Proof
end

