-- ==== Sys2Proof/Syntax.lean ====
section
/-!
DEFINITION. The instructions as syntax: one constructor per documented row of spec/opcode_table.json (151 rows, 56
mnemonics; spec/30_encoding.md R103, R104), and ONE constructor `unimplemented` for the 105 rows of the mnemonic
UNIMPLEMENTED (R106), which carries the byte. A constructor's name is the mnemonic with the addressing mode's suffix
(Imm `#`, A accumulator, Zp, ZpX, ZpY, Abs, AbsX, AbsY, Ind `(abs)`, IndX `(zp,X)`, IndY `(zp),Y`); its argument is the
operand field of R101.
-/

namespace Sys2Proof

/-- The closed set of 13 addressing modes (R105). -/
inductive Mode where
  | implied | accumulator | immediate | zeroPage | zeroPageX | zeroPageY
  | absolute | absoluteX | absoluteY | indirect | indirectX | indirectY | relative
  deriving DecidableEq, Repr

/-- The length in bytes of an instruction of each mode, opcode included (R101). -/
def Mode.length : Mode → Nat
  | .implied | .accumulator => 1
  | .immediate | .zeroPage | .zeroPageX | .zeroPageY | .indirectX | .indirectY | .relative => 2
  | .absolute | .absoluteX | .absoluteY | .indirect => 3

/-- The instructions (R103, R104, R106). -/
inductive Instr where
  -- 41_load_store.md
  /-- `LDA #imm`, opcode A9 (R161). -/
  | ldaImm (imm : Byte)
  /-- `LDA zp`, opcode A5 (R161). -/
  | ldaZp (zp : Byte)
  /-- `LDA zp,X`, opcode B5 (R161). -/
  | ldaZpX (zp : Byte)
  /-- `LDA abs`, opcode AD (R161). -/
  | ldaAbs (addr : Addr)
  /-- `LDA abs,X`, opcode BD (R161). -/
  | ldaAbsX (addr : Addr)
  /-- `LDA abs,Y`, opcode B9 (R161). -/
  | ldaAbsY (addr : Addr)
  /-- `LDA (zp,X)`, opcode A1 (R161). -/
  | ldaIndX (zp : Byte)
  /-- `LDA (zp),Y`, opcode B1 (R161). -/
  | ldaIndY (zp : Byte)
  /-- `LDX #imm`, opcode A2 (R162). -/
  | ldxImm (imm : Byte)
  /-- `LDX zp`, opcode A6 (R162). -/
  | ldxZp (zp : Byte)
  /-- `LDX zp,Y`, opcode B6 (R162). -/
  | ldxZpY (zp : Byte)
  /-- `LDX abs`, opcode AE (R162). -/
  | ldxAbs (addr : Addr)
  /-- `LDX abs,Y`, opcode BE (R162). -/
  | ldxAbsY (addr : Addr)
  /-- `LDY #imm`, opcode A0 (R163). -/
  | ldyImm (imm : Byte)
  /-- `LDY zp`, opcode A4 (R163). -/
  | ldyZp (zp : Byte)
  /-- `LDY zp,X`, opcode B4 (R163). -/
  | ldyZpX (zp : Byte)
  /-- `LDY abs`, opcode AC (R163). -/
  | ldyAbs (addr : Addr)
  /-- `LDY abs,X`, opcode BC (R163). -/
  | ldyAbsX (addr : Addr)
  /-- `STA zp`, opcode 85 (R164). -/
  | staZp (zp : Byte)
  /-- `STA zp,X`, opcode 95 (R164). -/
  | staZpX (zp : Byte)
  /-- `STA abs`, opcode 8D (R164). -/
  | staAbs (addr : Addr)
  /-- `STA abs,X`, opcode 9D (R164). -/
  | staAbsX (addr : Addr)
  /-- `STA abs,Y`, opcode 99 (R164). -/
  | staAbsY (addr : Addr)
  /-- `STA (zp,X)`, opcode 81 (R164). -/
  | staIndX (zp : Byte)
  /-- `STA (zp),Y`, opcode 91 (R164). -/
  | staIndY (zp : Byte)
  /-- `STX zp`, opcode 86 (R165). -/
  | stxZp (zp : Byte)
  /-- `STX zp,Y`, opcode 96 (R165). -/
  | stxZpY (zp : Byte)
  /-- `STX abs`, opcode 8E (R165). -/
  | stxAbs (addr : Addr)
  /-- `STY zp`, opcode 84 (R166). -/
  | styZp (zp : Byte)
  /-- `STY zp,X`, opcode 94 (R166). -/
  | styZpX (zp : Byte)
  /-- `STY abs`, opcode 8C (R166). -/
  | styAbs (addr : Addr)
  -- 42_alu.md
  /-- `ADC #imm`, opcode 69 (R182). -/
  | adcImm (imm : Byte)
  /-- `ADC zp`, opcode 65 (R182). -/
  | adcZp (zp : Byte)
  /-- `ADC zp,X`, opcode 75 (R182). -/
  | adcZpX (zp : Byte)
  /-- `ADC abs`, opcode 6D (R182). -/
  | adcAbs (addr : Addr)
  /-- `ADC abs,X`, opcode 7D (R182). -/
  | adcAbsX (addr : Addr)
  /-- `ADC abs,Y`, opcode 79 (R182). -/
  | adcAbsY (addr : Addr)
  /-- `ADC (zp,X)`, opcode 61 (R182). -/
  | adcIndX (zp : Byte)
  /-- `ADC (zp),Y`, opcode 71 (R182). -/
  | adcIndY (zp : Byte)
  /-- `SBC #imm`, opcode E9 (R183). -/
  | sbcImm (imm : Byte)
  /-- `SBC zp`, opcode E5 (R183). -/
  | sbcZp (zp : Byte)
  /-- `SBC zp,X`, opcode F5 (R183). -/
  | sbcZpX (zp : Byte)
  /-- `SBC abs`, opcode ED (R183). -/
  | sbcAbs (addr : Addr)
  /-- `SBC abs,X`, opcode FD (R183). -/
  | sbcAbsX (addr : Addr)
  /-- `SBC abs,Y`, opcode F9 (R183). -/
  | sbcAbsY (addr : Addr)
  /-- `SBC (zp,X)`, opcode E1 (R183). -/
  | sbcIndX (zp : Byte)
  /-- `SBC (zp),Y`, opcode F1 (R183). -/
  | sbcIndY (zp : Byte)
  /-- `AND #imm`, opcode 29 (R184). -/
  | andImm (imm : Byte)
  /-- `AND zp`, opcode 25 (R184). -/
  | andZp (zp : Byte)
  /-- `AND zp,X`, opcode 35 (R184). -/
  | andZpX (zp : Byte)
  /-- `AND abs`, opcode 2D (R184). -/
  | andAbs (addr : Addr)
  /-- `AND abs,X`, opcode 3D (R184). -/
  | andAbsX (addr : Addr)
  /-- `AND abs,Y`, opcode 39 (R184). -/
  | andAbsY (addr : Addr)
  /-- `AND (zp,X)`, opcode 21 (R184). -/
  | andIndX (zp : Byte)
  /-- `AND (zp),Y`, opcode 31 (R184). -/
  | andIndY (zp : Byte)
  /-- `ORA #imm`, opcode 09 (R185). -/
  | oraImm (imm : Byte)
  /-- `ORA zp`, opcode 05 (R185). -/
  | oraZp (zp : Byte)
  /-- `ORA zp,X`, opcode 15 (R185). -/
  | oraZpX (zp : Byte)
  /-- `ORA abs`, opcode 0D (R185). -/
  | oraAbs (addr : Addr)
  /-- `ORA abs,X`, opcode 1D (R185). -/
  | oraAbsX (addr : Addr)
  /-- `ORA abs,Y`, opcode 19 (R185). -/
  | oraAbsY (addr : Addr)
  /-- `ORA (zp,X)`, opcode 01 (R185). -/
  | oraIndX (zp : Byte)
  /-- `ORA (zp),Y`, opcode 11 (R185). -/
  | oraIndY (zp : Byte)
  /-- `EOR #imm`, opcode 49 (R186). -/
  | eorImm (imm : Byte)
  /-- `EOR zp`, opcode 45 (R186). -/
  | eorZp (zp : Byte)
  /-- `EOR zp,X`, opcode 55 (R186). -/
  | eorZpX (zp : Byte)
  /-- `EOR abs`, opcode 4D (R186). -/
  | eorAbs (addr : Addr)
  /-- `EOR abs,X`, opcode 5D (R186). -/
  | eorAbsX (addr : Addr)
  /-- `EOR abs,Y`, opcode 59 (R186). -/
  | eorAbsY (addr : Addr)
  /-- `EOR (zp,X)`, opcode 41 (R186). -/
  | eorIndX (zp : Byte)
  /-- `EOR (zp),Y`, opcode 51 (R186). -/
  | eorIndY (zp : Byte)
  /-- `CMP #imm`, opcode C9 (R187). -/
  | cmpImm (imm : Byte)
  /-- `CMP zp`, opcode C5 (R187). -/
  | cmpZp (zp : Byte)
  /-- `CMP zp,X`, opcode D5 (R187). -/
  | cmpZpX (zp : Byte)
  /-- `CMP abs`, opcode CD (R187). -/
  | cmpAbs (addr : Addr)
  /-- `CMP abs,X`, opcode DD (R187). -/
  | cmpAbsX (addr : Addr)
  /-- `CMP abs,Y`, opcode D9 (R187). -/
  | cmpAbsY (addr : Addr)
  /-- `CMP (zp,X)`, opcode C1 (R187). -/
  | cmpIndX (zp : Byte)
  /-- `CMP (zp),Y`, opcode D1 (R187). -/
  | cmpIndY (zp : Byte)
  /-- `CPX #imm`, opcode E0 (R188). -/
  | cpxImm (imm : Byte)
  /-- `CPX zp`, opcode E4 (R188). -/
  | cpxZp (zp : Byte)
  /-- `CPX abs`, opcode EC (R188). -/
  | cpxAbs (addr : Addr)
  /-- `CPY #imm`, opcode C0 (R189). -/
  | cpyImm (imm : Byte)
  /-- `CPY zp`, opcode C4 (R189). -/
  | cpyZp (zp : Byte)
  /-- `CPY abs`, opcode CC (R189). -/
  | cpyAbs (addr : Addr)
  /-- `BIT zp`, opcode 24 (R190). -/
  | bitZp (zp : Byte)
  /-- `BIT abs`, opcode 2C (R190). -/
  | bitAbs (addr : Addr)
  -- 43_shift_incdec.md
  /-- `ASL A`, opcode 0A (R201). -/
  | aslA
  /-- `ASL zp`, opcode 06 (R201). -/
  | aslZp (zp : Byte)
  /-- `ASL zp,X`, opcode 16 (R201). -/
  | aslZpX (zp : Byte)
  /-- `ASL abs`, opcode 0E (R201). -/
  | aslAbs (addr : Addr)
  /-- `ASL abs,X`, opcode 1E (R201). -/
  | aslAbsX (addr : Addr)
  /-- `LSR A`, opcode 4A (R202). -/
  | lsrA
  /-- `LSR zp`, opcode 46 (R202). -/
  | lsrZp (zp : Byte)
  /-- `LSR zp,X`, opcode 56 (R202). -/
  | lsrZpX (zp : Byte)
  /-- `LSR abs`, opcode 4E (R202). -/
  | lsrAbs (addr : Addr)
  /-- `LSR abs,X`, opcode 5E (R202). -/
  | lsrAbsX (addr : Addr)
  /-- `ROL A`, opcode 2A (R203). -/
  | rolA
  /-- `ROL zp`, opcode 26 (R203). -/
  | rolZp (zp : Byte)
  /-- `ROL zp,X`, opcode 36 (R203). -/
  | rolZpX (zp : Byte)
  /-- `ROL abs`, opcode 2E (R203). -/
  | rolAbs (addr : Addr)
  /-- `ROL abs,X`, opcode 3E (R203). -/
  | rolAbsX (addr : Addr)
  /-- `ROR A`, opcode 6A (R204). -/
  | rorA
  /-- `ROR zp`, opcode 66 (R204). -/
  | rorZp (zp : Byte)
  /-- `ROR zp,X`, opcode 76 (R204). -/
  | rorZpX (zp : Byte)
  /-- `ROR abs`, opcode 6E (R204). -/
  | rorAbs (addr : Addr)
  /-- `ROR abs,X`, opcode 7E (R204). -/
  | rorAbsX (addr : Addr)
  /-- `INC zp`, opcode E6 (R205). -/
  | incZp (zp : Byte)
  /-- `INC zp,X`, opcode F6 (R205). -/
  | incZpX (zp : Byte)
  /-- `INC abs`, opcode EE (R205). -/
  | incAbs (addr : Addr)
  /-- `INC abs,X`, opcode FE (R205). -/
  | incAbsX (addr : Addr)
  /-- `DEC zp`, opcode C6 (R206). -/
  | decZp (zp : Byte)
  /-- `DEC zp,X`, opcode D6 (R206). -/
  | decZpX (zp : Byte)
  /-- `DEC abs`, opcode CE (R206). -/
  | decAbs (addr : Addr)
  /-- `DEC abs,X`, opcode DE (R206). -/
  | decAbsX (addr : Addr)
  -- 44_control.md
  /-- `BCC rel`, opcode 90 (R221). -/
  | bcc (off : Byte)
  /-- `BCS rel`, opcode B0 (R222). -/
  | bcs (off : Byte)
  /-- `BEQ rel`, opcode F0 (R223). -/
  | beq (off : Byte)
  /-- `BNE rel`, opcode D0 (R224). -/
  | bne (off : Byte)
  /-- `BMI rel`, opcode 30 (R225). -/
  | bmi (off : Byte)
  /-- `BPL rel`, opcode 10 (R226). -/
  | bpl (off : Byte)
  /-- `BVC rel`, opcode 50 (R227). -/
  | bvc (off : Byte)
  /-- `BVS rel`, opcode 70 (R228). -/
  | bvs (off : Byte)
  /-- `JMP abs`, opcode 4C (R229). -/
  | jmpAbs (addr : Addr)
  /-- `JMP (abs)`, opcode 6C (R229). -/
  | jmpInd (ptr : Addr)
  /-- `JSR abs`, opcode 20 (R230). -/
  | jsr (addr : Addr)
  /-- `RTS`, opcode 60 (R232). -/
  | rts
  /-- `RTI`, opcode 40 (R233). -/
  | rti
  /-- `BRK`, opcode 00 (R235). -/
  | brk
  -- 45_single_mode.md
  /-- `TAX`, opcode AA (R251). -/
  | tax
  /-- `TAY`, opcode A8 (R252). -/
  | tay
  /-- `TXA`, opcode 8A (R253). -/
  | txa
  /-- `TYA`, opcode 98 (R254). -/
  | tya
  /-- `TSX`, opcode BA (R255). -/
  | tsx
  /-- `TXS`, opcode 9A (R256). -/
  | txs
  /-- `PHA`, opcode 48 (R257). -/
  | pha
  /-- `PHP`, opcode 08 (R258). -/
  | php
  /-- `PLA`, opcode 68 (R259). -/
  | pla
  /-- `PLP`, opcode 28 (R260). -/
  | plp
  /-- `CLC`, opcode 18 (R261). -/
  | clc
  /-- `SEC`, opcode 38 (R262). -/
  | sec
  /-- `CLI`, opcode 58 (R263). -/
  | cli
  /-- `SEI`, opcode 78 (R264). -/
  | sei
  /-- `CLD`, opcode D8 (R265). -/
  | cld
  /-- `SED`, opcode F8 (R266). -/
  | sed
  /-- `CLV`, opcode B8 (R267). -/
  | clv
  /-- `INX`, opcode E8 (R268). -/
  | inx
  /-- `INY`, opcode C8 (R269). -/
  | iny
  /-- `DEX`, opcode CA (R270). -/
  | dex
  /-- `DEY`, opcode 88 (R271). -/
  | dey
  /-- `NOP`, opcode EA (R272). -/
  | nop
  -- 30_encoding.md R106, 60_exceptions.md R302
  /-- A byte with no defined behaviour (R106); the argument is the opcode byte. -/
  | unimplemented (op : Byte)
  deriving DecidableEq, Repr

end Sys2Proof
end

