-- ==== Sys2Proof/Decode.lean ====
section
/-!
DEFINITION. The decoder, written from the opcode map of spec/30_encoding.md R103 (one row of the map a list, rows joined),
and after it the encoder, written from R104 (one mnemonic after another) with the formats of R101.
-/

namespace Sys2Proof

/-- What follows an opcode byte, and the instruction it makes: nothing, one operand byte, or a little-endian word of
two operand bytes (R101, R102). -/
inductive OpForm where
  | op0 (i : Instr)
  | op1 (k : Byte → Instr)
  | op2 (k : Addr → Instr)

/-- The number of operand bytes of a form (R101). -/
def OpForm.operandBytes : OpForm → Nat
  | .op0 _ => 0
  | .op1 _ => 1
  | .op2 _ => 2

/-- The instruction record of an opcode (spec/40_execution.md R122): mnemonic, addressing mode (which gives the byte
length, R101), base cycle count (information only, spec/70_reset_and_hazards.md R345; nothing reads it) and the
instruction, whose behaviour is `Machine.exec`. -/
structure InstrRecord where
  opcode : Byte
  mnemonic : String
  mode : Mode
  baseCycles : Nat
  form : OpForm

/-- Row 0x of the opcode map (R103). -/
def opcodeRow0 : List InstrRecord := [
  ⟨0x00, "BRK", .implied, 7, .op0 .brk⟩,
  ⟨0x01, "ORA", .indirectX, 6, .op1 .oraIndX⟩,
  ⟨0x05, "ORA", .zeroPage, 3, .op1 .oraZp⟩,
  ⟨0x06, "ASL", .zeroPage, 5, .op1 .aslZp⟩,
  ⟨0x08, "PHP", .implied, 3, .op0 .php⟩,
  ⟨0x09, "ORA", .immediate, 2, .op1 .oraImm⟩,
  ⟨0x0A, "ASL", .accumulator, 2, .op0 .aslA⟩,
  ⟨0x0D, "ORA", .absolute, 4, .op2 .oraAbs⟩,
  ⟨0x0E, "ASL", .absolute, 6, .op2 .aslAbs⟩]

/-- Row 1x of the opcode map (R103). -/
def opcodeRow1 : List InstrRecord := [
  ⟨0x10, "BPL", .relative, 2, .op1 .bpl⟩,
  ⟨0x11, "ORA", .indirectY, 5, .op1 .oraIndY⟩,
  ⟨0x15, "ORA", .zeroPageX, 4, .op1 .oraZpX⟩,
  ⟨0x16, "ASL", .zeroPageX, 6, .op1 .aslZpX⟩,
  ⟨0x18, "CLC", .implied, 2, .op0 .clc⟩,
  ⟨0x19, "ORA", .absoluteY, 4, .op2 .oraAbsY⟩,
  ⟨0x1D, "ORA", .absoluteX, 4, .op2 .oraAbsX⟩,
  ⟨0x1E, "ASL", .absoluteX, 7, .op2 .aslAbsX⟩]

/-- Row 2x of the opcode map (R103). -/
def opcodeRow2 : List InstrRecord := [
  ⟨0x20, "JSR", .absolute, 6, .op2 .jsr⟩,
  ⟨0x21, "AND", .indirectX, 6, .op1 .andIndX⟩,
  ⟨0x24, "BIT", .zeroPage, 3, .op1 .bitZp⟩,
  ⟨0x25, "AND", .zeroPage, 3, .op1 .andZp⟩,
  ⟨0x26, "ROL", .zeroPage, 5, .op1 .rolZp⟩,
  ⟨0x28, "PLP", .implied, 4, .op0 .plp⟩,
  ⟨0x29, "AND", .immediate, 2, .op1 .andImm⟩,
  ⟨0x2A, "ROL", .accumulator, 2, .op0 .rolA⟩,
  ⟨0x2C, "BIT", .absolute, 4, .op2 .bitAbs⟩,
  ⟨0x2D, "AND", .absolute, 4, .op2 .andAbs⟩,
  ⟨0x2E, "ROL", .absolute, 6, .op2 .rolAbs⟩]

/-- Row 3x of the opcode map (R103). -/
def opcodeRow3 : List InstrRecord := [
  ⟨0x30, "BMI", .relative, 2, .op1 .bmi⟩,
  ⟨0x31, "AND", .indirectY, 5, .op1 .andIndY⟩,
  ⟨0x35, "AND", .zeroPageX, 4, .op1 .andZpX⟩,
  ⟨0x36, "ROL", .zeroPageX, 6, .op1 .rolZpX⟩,
  ⟨0x38, "SEC", .implied, 2, .op0 .sec⟩,
  ⟨0x39, "AND", .absoluteY, 4, .op2 .andAbsY⟩,
  ⟨0x3D, "AND", .absoluteX, 4, .op2 .andAbsX⟩,
  ⟨0x3E, "ROL", .absoluteX, 7, .op2 .rolAbsX⟩]

/-- Row 4x of the opcode map (R103). -/
def opcodeRow4 : List InstrRecord := [
  ⟨0x40, "RTI", .implied, 6, .op0 .rti⟩,
  ⟨0x41, "EOR", .indirectX, 6, .op1 .eorIndX⟩,
  ⟨0x45, "EOR", .zeroPage, 3, .op1 .eorZp⟩,
  ⟨0x46, "LSR", .zeroPage, 5, .op1 .lsrZp⟩,
  ⟨0x48, "PHA", .implied, 3, .op0 .pha⟩,
  ⟨0x49, "EOR", .immediate, 2, .op1 .eorImm⟩,
  ⟨0x4A, "LSR", .accumulator, 2, .op0 .lsrA⟩,
  ⟨0x4C, "JMP", .absolute, 3, .op2 .jmpAbs⟩,
  ⟨0x4D, "EOR", .absolute, 4, .op2 .eorAbs⟩,
  ⟨0x4E, "LSR", .absolute, 6, .op2 .lsrAbs⟩]

/-- Row 5x of the opcode map (R103). -/
def opcodeRow5 : List InstrRecord := [
  ⟨0x50, "BVC", .relative, 2, .op1 .bvc⟩,
  ⟨0x51, "EOR", .indirectY, 5, .op1 .eorIndY⟩,
  ⟨0x55, "EOR", .zeroPageX, 4, .op1 .eorZpX⟩,
  ⟨0x56, "LSR", .zeroPageX, 6, .op1 .lsrZpX⟩,
  ⟨0x58, "CLI", .implied, 2, .op0 .cli⟩,
  ⟨0x59, "EOR", .absoluteY, 4, .op2 .eorAbsY⟩,
  ⟨0x5D, "EOR", .absoluteX, 4, .op2 .eorAbsX⟩,
  ⟨0x5E, "LSR", .absoluteX, 7, .op2 .lsrAbsX⟩]

/-- Row 6x of the opcode map (R103). -/
def opcodeRow6 : List InstrRecord := [
  ⟨0x60, "RTS", .implied, 6, .op0 .rts⟩,
  ⟨0x61, "ADC", .indirectX, 6, .op1 .adcIndX⟩,
  ⟨0x65, "ADC", .zeroPage, 3, .op1 .adcZp⟩,
  ⟨0x66, "ROR", .zeroPage, 5, .op1 .rorZp⟩,
  ⟨0x68, "PLA", .implied, 4, .op0 .pla⟩,
  ⟨0x69, "ADC", .immediate, 2, .op1 .adcImm⟩,
  ⟨0x6A, "ROR", .accumulator, 2, .op0 .rorA⟩,
  ⟨0x6C, "JMP", .indirect, 5, .op2 .jmpInd⟩,
  ⟨0x6D, "ADC", .absolute, 4, .op2 .adcAbs⟩,
  ⟨0x6E, "ROR", .absolute, 6, .op2 .rorAbs⟩]

/-- Row 7x of the opcode map (R103). -/
def opcodeRow7 : List InstrRecord := [
  ⟨0x70, "BVS", .relative, 2, .op1 .bvs⟩,
  ⟨0x71, "ADC", .indirectY, 5, .op1 .adcIndY⟩,
  ⟨0x75, "ADC", .zeroPageX, 4, .op1 .adcZpX⟩,
  ⟨0x76, "ROR", .zeroPageX, 6, .op1 .rorZpX⟩,
  ⟨0x78, "SEI", .implied, 2, .op0 .sei⟩,
  ⟨0x79, "ADC", .absoluteY, 4, .op2 .adcAbsY⟩,
  ⟨0x7D, "ADC", .absoluteX, 4, .op2 .adcAbsX⟩,
  ⟨0x7E, "ROR", .absoluteX, 7, .op2 .rorAbsX⟩]

/-- Row 8x of the opcode map (R103). -/
def opcodeRow8 : List InstrRecord := [
  ⟨0x81, "STA", .indirectX, 6, .op1 .staIndX⟩,
  ⟨0x84, "STY", .zeroPage, 3, .op1 .styZp⟩,
  ⟨0x85, "STA", .zeroPage, 3, .op1 .staZp⟩,
  ⟨0x86, "STX", .zeroPage, 3, .op1 .stxZp⟩,
  ⟨0x88, "DEY", .implied, 2, .op0 .dey⟩,
  ⟨0x8A, "TXA", .implied, 2, .op0 .txa⟩,
  ⟨0x8C, "STY", .absolute, 4, .op2 .styAbs⟩,
  ⟨0x8D, "STA", .absolute, 4, .op2 .staAbs⟩,
  ⟨0x8E, "STX", .absolute, 4, .op2 .stxAbs⟩]

/-- Row 9x of the opcode map (R103). -/
def opcodeRow9 : List InstrRecord := [
  ⟨0x90, "BCC", .relative, 2, .op1 .bcc⟩,
  ⟨0x91, "STA", .indirectY, 6, .op1 .staIndY⟩,
  ⟨0x94, "STY", .zeroPageX, 4, .op1 .styZpX⟩,
  ⟨0x95, "STA", .zeroPageX, 4, .op1 .staZpX⟩,
  ⟨0x96, "STX", .zeroPageY, 4, .op1 .stxZpY⟩,
  ⟨0x98, "TYA", .implied, 2, .op0 .tya⟩,
  ⟨0x99, "STA", .absoluteY, 5, .op2 .staAbsY⟩,
  ⟨0x9A, "TXS", .implied, 2, .op0 .txs⟩,
  ⟨0x9D, "STA", .absoluteX, 5, .op2 .staAbsX⟩]

/-- Row Ax of the opcode map (R103). -/
def opcodeRowA : List InstrRecord := [
  ⟨0xA0, "LDY", .immediate, 2, .op1 .ldyImm⟩,
  ⟨0xA1, "LDA", .indirectX, 6, .op1 .ldaIndX⟩,
  ⟨0xA2, "LDX", .immediate, 2, .op1 .ldxImm⟩,
  ⟨0xA4, "LDY", .zeroPage, 3, .op1 .ldyZp⟩,
  ⟨0xA5, "LDA", .zeroPage, 3, .op1 .ldaZp⟩,
  ⟨0xA6, "LDX", .zeroPage, 3, .op1 .ldxZp⟩,
  ⟨0xA8, "TAY", .implied, 2, .op0 .tay⟩,
  ⟨0xA9, "LDA", .immediate, 2, .op1 .ldaImm⟩,
  ⟨0xAA, "TAX", .implied, 2, .op0 .tax⟩,
  ⟨0xAC, "LDY", .absolute, 4, .op2 .ldyAbs⟩,
  ⟨0xAD, "LDA", .absolute, 4, .op2 .ldaAbs⟩,
  ⟨0xAE, "LDX", .absolute, 4, .op2 .ldxAbs⟩]

/-- Row Bx of the opcode map (R103). -/
def opcodeRowB : List InstrRecord := [
  ⟨0xB0, "BCS", .relative, 2, .op1 .bcs⟩,
  ⟨0xB1, "LDA", .indirectY, 5, .op1 .ldaIndY⟩,
  ⟨0xB4, "LDY", .zeroPageX, 4, .op1 .ldyZpX⟩,
  ⟨0xB5, "LDA", .zeroPageX, 4, .op1 .ldaZpX⟩,
  ⟨0xB6, "LDX", .zeroPageY, 4, .op1 .ldxZpY⟩,
  ⟨0xB8, "CLV", .implied, 2, .op0 .clv⟩,
  ⟨0xB9, "LDA", .absoluteY, 4, .op2 .ldaAbsY⟩,
  ⟨0xBA, "TSX", .implied, 2, .op0 .tsx⟩,
  ⟨0xBC, "LDY", .absoluteX, 4, .op2 .ldyAbsX⟩,
  ⟨0xBD, "LDA", .absoluteX, 4, .op2 .ldaAbsX⟩,
  ⟨0xBE, "LDX", .absoluteY, 4, .op2 .ldxAbsY⟩]

/-- Row Cx of the opcode map (R103). -/
def opcodeRowC : List InstrRecord := [
  ⟨0xC0, "CPY", .immediate, 2, .op1 .cpyImm⟩,
  ⟨0xC1, "CMP", .indirectX, 6, .op1 .cmpIndX⟩,
  ⟨0xC4, "CPY", .zeroPage, 3, .op1 .cpyZp⟩,
  ⟨0xC5, "CMP", .zeroPage, 3, .op1 .cmpZp⟩,
  ⟨0xC6, "DEC", .zeroPage, 5, .op1 .decZp⟩,
  ⟨0xC8, "INY", .implied, 2, .op0 .iny⟩,
  ⟨0xC9, "CMP", .immediate, 2, .op1 .cmpImm⟩,
  ⟨0xCA, "DEX", .implied, 2, .op0 .dex⟩,
  ⟨0xCC, "CPY", .absolute, 4, .op2 .cpyAbs⟩,
  ⟨0xCD, "CMP", .absolute, 4, .op2 .cmpAbs⟩,
  ⟨0xCE, "DEC", .absolute, 6, .op2 .decAbs⟩]

/-- Row Dx of the opcode map (R103). -/
def opcodeRowD : List InstrRecord := [
  ⟨0xD0, "BNE", .relative, 2, .op1 .bne⟩,
  ⟨0xD1, "CMP", .indirectY, 5, .op1 .cmpIndY⟩,
  ⟨0xD5, "CMP", .zeroPageX, 4, .op1 .cmpZpX⟩,
  ⟨0xD6, "DEC", .zeroPageX, 6, .op1 .decZpX⟩,
  ⟨0xD8, "CLD", .implied, 2, .op0 .cld⟩,
  ⟨0xD9, "CMP", .absoluteY, 4, .op2 .cmpAbsY⟩,
  ⟨0xDD, "CMP", .absoluteX, 4, .op2 .cmpAbsX⟩,
  ⟨0xDE, "DEC", .absoluteX, 7, .op2 .decAbsX⟩]

/-- Row Ex of the opcode map (R103). -/
def opcodeRowE : List InstrRecord := [
  ⟨0xE0, "CPX", .immediate, 2, .op1 .cpxImm⟩,
  ⟨0xE1, "SBC", .indirectX, 6, .op1 .sbcIndX⟩,
  ⟨0xE4, "CPX", .zeroPage, 3, .op1 .cpxZp⟩,
  ⟨0xE5, "SBC", .zeroPage, 3, .op1 .sbcZp⟩,
  ⟨0xE6, "INC", .zeroPage, 5, .op1 .incZp⟩,
  ⟨0xE8, "INX", .implied, 2, .op0 .inx⟩,
  ⟨0xE9, "SBC", .immediate, 2, .op1 .sbcImm⟩,
  ⟨0xEA, "NOP", .implied, 2, .op0 .nop⟩,
  ⟨0xEC, "CPX", .absolute, 4, .op2 .cpxAbs⟩,
  ⟨0xED, "SBC", .absolute, 4, .op2 .sbcAbs⟩,
  ⟨0xEE, "INC", .absolute, 6, .op2 .incAbs⟩]

/-- Row Fx of the opcode map (R103). -/
def opcodeRowF : List InstrRecord := [
  ⟨0xF0, "BEQ", .relative, 2, .op1 .beq⟩,
  ⟨0xF1, "SBC", .indirectY, 5, .op1 .sbcIndY⟩,
  ⟨0xF5, "SBC", .zeroPageX, 4, .op1 .sbcZpX⟩,
  ⟨0xF6, "INC", .zeroPageX, 6, .op1 .incZpX⟩,
  ⟨0xF8, "SED", .implied, 2, .op0 .sed⟩,
  ⟨0xF9, "SBC", .absoluteY, 4, .op2 .sbcAbsY⟩,
  ⟨0xFD, "SBC", .absoluteX, 4, .op2 .sbcAbsX⟩,
  ⟨0xFE, "INC", .absoluteX, 7, .op2 .incAbsX⟩]

/-- The opcode map (R103): 151 records. -/
def opcodeTable : List InstrRecord :=
  opcodeRow0 ++ (opcodeRow1 ++ (opcodeRow2 ++ (opcodeRow3 ++ (opcodeRow4 ++ (opcodeRow5 ++ (opcodeRow6 ++ (opcodeRow7 ++
  (opcodeRow8 ++ (opcodeRow9 ++ (opcodeRowA ++ (opcodeRowB ++ (opcodeRowC ++ (opcodeRowD ++ (opcodeRowE ++ opcodeRowF))))))))))))))

/-- The 151 documented opcodes, the default of `IMPLEMENTED_OPCODES` (spec/00_scope.md R3, R8). -/
def documentedOpcodes : List Byte := opcodeTable.map (·.opcode)

/-- The record of an opcode in a list of records. -/
def findRecord (op : Byte) : List InstrRecord → Option InstrRecord
  | [] => none
  | r :: t => if r.opcode = op then some r else findRecord op t

/-- The instruction an opcode byte begins (spec/40_execution.md R121): a byte with no record is the unimplemented
instruction (R106), which takes no operand byte. -/
def decodeOpcode (op : Byte) : OpForm :=
  match findRecord op opcodeTable with
  | some r => r.form
  | none => .op0 (.unimplemented op)

/-- Why a list of bytes holds no whole instruction (notes/assumptions/17.md). -/
inductive DecodeError where
  /-- There is no opcode byte. -/
  | noBytes
  /-- The operand bytes of `opcode` are missing. -/
  | truncated (opcode : Byte)
  deriving DecidableEq, Repr

/-- The instruction at the front of a list of bytes, and the bytes after it (R100, R101). -/
def decode : List Byte → Except DecodeError (Instr × List Byte)
  | [] => .error .noBytes
  | op :: rest =>
    match decodeOpcode op, rest with
    | .op0 i, rest => .ok (i, rest)
    | .op1 k, b :: rest => .ok (k b, rest)
    | .op1 _, [] => .error (.truncated op)
    | .op2 k, lo :: hi :: rest => .ok (k (joinBytes hi lo), rest)
    | .op2 _, _ => .error (.truncated op)

/-- The three bytes of an instruction whose bits are `w`, the first byte in bits 7..0; bits from `nbits` up are 0. -/
def tableWordBytes (nbits w : Nat) : List Byte :=
  let v := w % 2 ^ nbits
  [BitVec.ofNat 8 v, BitVec.ofNat 8 (v / 256), BitVec.ofNat 8 (v / 65536)]

/-- The instruction the decoder reads from a word of spec/opcode_table.json (the host's interface). -/
def decodeTableWord (nbits w : Nat) : Option Instr :=
  match decode (tableWordBytes nbits w) with
  | .ok (i, _) => some i
  | .error _ => none

/-- An instruction of one byte (R101). -/
def enc0 (op : Byte) : List Byte := [op]

/-- An instruction of two bytes (R101). -/
def enc1 (op b : Byte) : List Byte := [op, b]

/-- An instruction of three bytes: the operand word low byte first (R101, R102). -/
def enc2 (op : Byte) (w : Addr) : List Byte := [op, loByte w, hiByte w]

/-- The bytes of an instruction (R101, R104). -/
def encode : Instr → List Byte
  -- 41_load_store.md
  | .ldaImm imm => enc1 0xA9 imm
  | .ldaZp zp => enc1 0xA5 zp
  | .ldaZpX zp => enc1 0xB5 zp
  | .ldaAbs addr => enc2 0xAD addr
  | .ldaAbsX addr => enc2 0xBD addr
  | .ldaAbsY addr => enc2 0xB9 addr
  | .ldaIndX zp => enc1 0xA1 zp
  | .ldaIndY zp => enc1 0xB1 zp
  | .ldxImm imm => enc1 0xA2 imm
  | .ldxZp zp => enc1 0xA6 zp
  | .ldxZpY zp => enc1 0xB6 zp
  | .ldxAbs addr => enc2 0xAE addr
  | .ldxAbsY addr => enc2 0xBE addr
  | .ldyImm imm => enc1 0xA0 imm
  | .ldyZp zp => enc1 0xA4 zp
  | .ldyZpX zp => enc1 0xB4 zp
  | .ldyAbs addr => enc2 0xAC addr
  | .ldyAbsX addr => enc2 0xBC addr
  | .staZp zp => enc1 0x85 zp
  | .staZpX zp => enc1 0x95 zp
  | .staAbs addr => enc2 0x8D addr
  | .staAbsX addr => enc2 0x9D addr
  | .staAbsY addr => enc2 0x99 addr
  | .staIndX zp => enc1 0x81 zp
  | .staIndY zp => enc1 0x91 zp
  | .stxZp zp => enc1 0x86 zp
  | .stxZpY zp => enc1 0x96 zp
  | .stxAbs addr => enc2 0x8E addr
  | .styZp zp => enc1 0x84 zp
  | .styZpX zp => enc1 0x94 zp
  | .styAbs addr => enc2 0x8C addr
  -- 42_alu.md
  | .adcImm imm => enc1 0x69 imm
  | .adcZp zp => enc1 0x65 zp
  | .adcZpX zp => enc1 0x75 zp
  | .adcAbs addr => enc2 0x6D addr
  | .adcAbsX addr => enc2 0x7D addr
  | .adcAbsY addr => enc2 0x79 addr
  | .adcIndX zp => enc1 0x61 zp
  | .adcIndY zp => enc1 0x71 zp
  | .sbcImm imm => enc1 0xE9 imm
  | .sbcZp zp => enc1 0xE5 zp
  | .sbcZpX zp => enc1 0xF5 zp
  | .sbcAbs addr => enc2 0xED addr
  | .sbcAbsX addr => enc2 0xFD addr
  | .sbcAbsY addr => enc2 0xF9 addr
  | .sbcIndX zp => enc1 0xE1 zp
  | .sbcIndY zp => enc1 0xF1 zp
  | .andImm imm => enc1 0x29 imm
  | .andZp zp => enc1 0x25 zp
  | .andZpX zp => enc1 0x35 zp
  | .andAbs addr => enc2 0x2D addr
  | .andAbsX addr => enc2 0x3D addr
  | .andAbsY addr => enc2 0x39 addr
  | .andIndX zp => enc1 0x21 zp
  | .andIndY zp => enc1 0x31 zp
  | .oraImm imm => enc1 0x09 imm
  | .oraZp zp => enc1 0x05 zp
  | .oraZpX zp => enc1 0x15 zp
  | .oraAbs addr => enc2 0x0D addr
  | .oraAbsX addr => enc2 0x1D addr
  | .oraAbsY addr => enc2 0x19 addr
  | .oraIndX zp => enc1 0x01 zp
  | .oraIndY zp => enc1 0x11 zp
  | .eorImm imm => enc1 0x49 imm
  | .eorZp zp => enc1 0x45 zp
  | .eorZpX zp => enc1 0x55 zp
  | .eorAbs addr => enc2 0x4D addr
  | .eorAbsX addr => enc2 0x5D addr
  | .eorAbsY addr => enc2 0x59 addr
  | .eorIndX zp => enc1 0x41 zp
  | .eorIndY zp => enc1 0x51 zp
  | .cmpImm imm => enc1 0xC9 imm
  | .cmpZp zp => enc1 0xC5 zp
  | .cmpZpX zp => enc1 0xD5 zp
  | .cmpAbs addr => enc2 0xCD addr
  | .cmpAbsX addr => enc2 0xDD addr
  | .cmpAbsY addr => enc2 0xD9 addr
  | .cmpIndX zp => enc1 0xC1 zp
  | .cmpIndY zp => enc1 0xD1 zp
  | .cpxImm imm => enc1 0xE0 imm
  | .cpxZp zp => enc1 0xE4 zp
  | .cpxAbs addr => enc2 0xEC addr
  | .cpyImm imm => enc1 0xC0 imm
  | .cpyZp zp => enc1 0xC4 zp
  | .cpyAbs addr => enc2 0xCC addr
  | .bitZp zp => enc1 0x24 zp
  | .bitAbs addr => enc2 0x2C addr
  -- 43_shift_incdec.md
  | .aslA => enc0 0x0A
  | .aslZp zp => enc1 0x06 zp
  | .aslZpX zp => enc1 0x16 zp
  | .aslAbs addr => enc2 0x0E addr
  | .aslAbsX addr => enc2 0x1E addr
  | .lsrA => enc0 0x4A
  | .lsrZp zp => enc1 0x46 zp
  | .lsrZpX zp => enc1 0x56 zp
  | .lsrAbs addr => enc2 0x4E addr
  | .lsrAbsX addr => enc2 0x5E addr
  | .rolA => enc0 0x2A
  | .rolZp zp => enc1 0x26 zp
  | .rolZpX zp => enc1 0x36 zp
  | .rolAbs addr => enc2 0x2E addr
  | .rolAbsX addr => enc2 0x3E addr
  | .rorA => enc0 0x6A
  | .rorZp zp => enc1 0x66 zp
  | .rorZpX zp => enc1 0x76 zp
  | .rorAbs addr => enc2 0x6E addr
  | .rorAbsX addr => enc2 0x7E addr
  | .incZp zp => enc1 0xE6 zp
  | .incZpX zp => enc1 0xF6 zp
  | .incAbs addr => enc2 0xEE addr
  | .incAbsX addr => enc2 0xFE addr
  | .decZp zp => enc1 0xC6 zp
  | .decZpX zp => enc1 0xD6 zp
  | .decAbs addr => enc2 0xCE addr
  | .decAbsX addr => enc2 0xDE addr
  -- 44_control.md
  | .bcc off => enc1 0x90 off
  | .bcs off => enc1 0xB0 off
  | .beq off => enc1 0xF0 off
  | .bne off => enc1 0xD0 off
  | .bmi off => enc1 0x30 off
  | .bpl off => enc1 0x10 off
  | .bvc off => enc1 0x50 off
  | .bvs off => enc1 0x70 off
  | .jmpAbs addr => enc2 0x4C addr
  | .jmpInd ptr => enc2 0x6C ptr
  | .jsr addr => enc2 0x20 addr
  | .rts => enc0 0x60
  | .rti => enc0 0x40
  | .brk => enc0 0x00
  -- 45_single_mode.md
  | .tax => enc0 0xAA
  | .tay => enc0 0xA8
  | .txa => enc0 0x8A
  | .tya => enc0 0x98
  | .tsx => enc0 0xBA
  | .txs => enc0 0x9A
  | .pha => enc0 0x48
  | .php => enc0 0x08
  | .pla => enc0 0x68
  | .plp => enc0 0x28
  | .clc => enc0 0x18
  | .sec => enc0 0x38
  | .cli => enc0 0x58
  | .sei => enc0 0x78
  | .cld => enc0 0xD8
  | .sed => enc0 0xF8
  | .clv => enc0 0xB8
  | .inx => enc0 0xE8
  | .iny => enc0 0xC8
  | .dex => enc0 0xCA
  | .dey => enc0 0x88
  | .nop => enc0 0xEA
  | .unimplemented op => enc0 op

/-- The length of an instruction in bytes (R100). -/
def instrLength (i : Instr) : Nat := (encode i).length

/-- The opcode byte of an instruction. -/
def instrOpcode (i : Instr) : Byte :=
  match encode i with
  | op :: _ => op
  | [] => 0

/-- The mnemonic of an instruction, from its record (spec/40_execution.md R122). -/
def mnemonicOf (i : Instr) : String :=
  match findRecord (instrOpcode i) opcodeTable with
  | some r => r.mnemonic
  | none => "UNIMPLEMENTED"

/-- The addressing mode of an instruction, from its record (spec/40_execution.md R122); an unimplemented byte has none. -/
def modeOf (i : Instr) : Option Mode :=
  match findRecord (instrOpcode i) opcodeTable with
  | some r => some r.mode
  | none => none

end Sys2Proof
end

