-- ==== Sys2Proof/Config.lean ====
section
/-!
DEFINITION. The configuration: the named parameters of spec/00_scope.md R8 with their defaults, and the free values of
the spec as opaque constants, of which nothing can be proved.
-/

namespace Sys2Proof

/-- `BACKEND` (spec/20_memory.md R55). -/
inductive Backend where
  | flat | oracle
  deriving DecidableEq, Repr

/-- `ORACLE_READ_POLICY` (spec/20_memory.md R74). -/
inductive ReadPolicy where
  | persistent | consumeOnce
  deriving DecidableEq, Repr

/-- `ENTRY_MODE`, with `ENTRY_PC` under `EntryPC` (spec/70_reset_and_hazards.md R330). -/
inductive EntryMode where
  | entryPC (pc : Addr)
  | resetVector
  deriving DecidableEq, Repr

/-- The five bytes of `RESET_REGS` (R8). -/
structure ResetRegs where
  a : Byte
  x : Byte
  y : Byte
  sp : Byte
  p : Byte
  deriving DecidableEq, Repr

/-- The parameters of R8. `INIT_MEM` is the memory image of the state with `Config.initMem`. -/
structure Params where
  /-- `IMPLEMENTED_OPCODES`: the decoder executes these and no other. -/
  implemented : List Byte
  /-- `RESET_REGS`. -/
  resetRegs : ResetRegs
  /-- `ENTRY_MODE` and `ENTRY_PC`. -/
  entryMode : EntryMode
  /-- `IZX_PTR_WRAP`. -/
  izxPtrWrap : Bool
  /-- `IZY_PTR_WRAP`. -/
  izyPtrWrap : Bool
  /-- `BACKEND`. -/
  backend : Backend
  /-- `ORACLE_READ_POLICY`. -/
  readPolicy : ReadPolicy
  /-- `ORACLE_REQUIRE_WRITES`. -/
  requireWrites : Bool
  deriving DecidableEq, Repr

/-- The defaults of R8. `ENTRY_PC` has none there: 0x0000 is a DESIGN CHOICE (notes/assumptions/2.md), unsafe. -/
def Params.default : Params where
  implemented := documentedOpcodes
  resetRegs := ⟨0x00, 0x00, 0x00, 0xFD, 0x24⟩
  entryMode := .entryPC 0x0000
  izxPtrWrap := true
  izyPtrWrap := false
  backend := .flat
  readPolicy := .persistent
  requireWrites := false

/-- `INIT_MEM` at a byte the host did not populate: a draw (spec/20_memory.md R62), the same at every read of the
address. Safe: nothing can be proved of its value. -/
opaque Config.initMem : Addr → Byte

/-- A free byte, from a counter and an index: a register after a verification violation (spec/60_exceptions.md R305). -/
opaque Config.freeByte : Nat → Nat → Byte

/-- A free address, from a counter: PC after a verification violation (R305). -/
opaque Config.freeAddr : Nat → Addr

end Sys2Proof
end

