-- ==== Sys2Proof/Machine/Flags.lean ====
section
/-!
DEFINITION. The status register P (spec/10_state.md R26 to R35) and every flag computation of the spec: SetZN
(spec/00_scope.md R13), the adder and the comparator (spec/42_alu.md R180, R181), BIT (R190), the shifter
(spec/43_shift_incdec.md R201 to R204).
-/

namespace Sys2Proof.Machine

/-- P as its six stored flags. Bits 5 (U) and 4 (B) are hard-wired and have no storage (R31, R32; notes/assumptions/5.md). -/
structure Status where
  n : Bool
  v : Bool
  d : Bool
  i : Bool
  z : Bool
  c : Bool
  deriving DecidableEq, Repr

/-- P as a byte: `N<<7 | V<<6 | 1<<5 | 0<<4 | D<<3 | I<<2 | Z<<1 | C` (R35). -/
def Status.toByte (p : Status) : Byte :=
  flagByte p.n <<< 7 ||| flagByte p.v <<< 6 ||| 0x20 ||| flagByte p.d <<< 3 |||
    flagByte p.i <<< 2 ||| flagByte p.z <<< 1 ||| flagByte p.c

/-- The byte PHP and BRK push: `P | 0x30` (R35). -/
def Status.pushByte (p : Status) : Byte := p.toByte ||| 0x30

/-- Loading P from a byte: bits 5 and 4 are ignored (R35). -/
def Status.ofByte (b : Byte) : Status where
  n := b.getLsbD 7
  v := b.getLsbD 6
  d := b.getLsbD 3
  i := b.getLsbD 2
  z := b.getLsbD 1
  c := b.getLsbD 0

/-- `SetZN(v)` (spec/00_scope.md R13, spec/40_execution.md R144). -/
def Status.setZN (p : Status) (v : Byte) : Status := { p with z := v == 0, n := v.getLsbD 7 }

/-- What the adder answers: the result byte, the carry out and the overflow. -/
structure Sum where
  r : Byte
  c : Bool
  v : Bool
  deriving DecidableEq, Repr

/-- `AddWithCarry(a, m, cin)`, the binary adder of ADC and SBC (R180): the exact 9-bit sum, narrowed. D is no input. -/
def addWithCarry (a m : Byte) (cin : Bool) : Sum :=
  let s := a.toNat + m.toNat + cin.toNat
  let r := BitVec.ofNat 8 s
  { r := r, c := decide (0xFF < s), v := ((a ^^^ r) &&& (m ^^^ r) &&& 0x80) != 0 }

/-- C, V, Z and N from the adder (R182, R183). -/
def Status.setSum (p : Status) (t : Sum) : Status := { p with c := t.c, v := t.v }.setZN t.r

/-- `Compare(reg, m)` (R181): C is "no borrow", Z and N are of the 8-bit difference, V is not written. -/
def Status.compare (p : Status) (reg m : Byte) : Status :=
  { p with c := decide (m.toNat ≤ reg.toNat) }.setZN (reg - m)

/-- BIT's flags (R190): Z from `A & m`, N and V from bits 7 and 6 of `m`. -/
def Status.bitTest (p : Status) (a m : Byte) : Status :=
  { p with z := (a &&& m) == 0, n := m.getLsbD 7, v := m.getLsbD 6 }

/-- A shifted or rotated byte and the bit shifted out (spec/10_state.md R27). -/
structure Shifted where
  r : Byte
  c : Bool
  deriving DecidableEq, Repr

/-- C from the bit shifted out, Z and N from the result (R201 to R204). -/
def Status.setShift (p : Status) (t : Shifted) : Status := { p with c := t.c }.setZN t.r

/-- ASL (R201). The incoming carry is ignored. -/
def shiftAsl (v : Byte) (_c : Bool) : Shifted := { r := v <<< 1, c := v.getLsbD 7 }

/-- LSR (R202). The incoming carry is ignored. -/
def shiftLsr (v : Byte) (_c : Bool) : Shifted := { r := v >>> 1, c := v.getLsbD 0 }

/-- ROL (R203): the old carry enters bit 0. -/
def shiftRol (v : Byte) (c : Bool) : Shifted := { r := v <<< 1 ||| flagByte c, c := v.getLsbD 7 }

/-- ROR (R204): the old carry enters bit 7. -/
def shiftRor (v : Byte) (c : Bool) : Shifted := { r := v >>> 1 ||| flagByte c <<< 7, c := v.getLsbD 0 }

end Sys2Proof.Machine
end

