-- ==== Sys2Proof/Machine/Memory.lean ====
section
/-!
DEFINITION. Tables from 16-bit addresses to data, as lists of key and value in one canonical form, and the flat
backend's memory (spec/20_memory.md R60 to R62) as such a table.
-/

namespace Sys2Proof.Machine

/-- The value a table lists at a key. -/
def tableGet {α : Type} (k : Nat) : List (Nat × α) → Option α
  | [] => none
  | (k', v) :: t => if k' = k then some v else tableGet k t

/-- The table with `v` at `k`, keys kept strictly rising. -/
def tableSet {α : Type} (k : Nat) (v : α) : List (Nat × α) → List (Nat × α)
  | [] => [(k, v)]
  | (k', v') :: t =>
    if k < k' then (k, v) :: (k', v') :: t
    else if k = k' then (k, v) :: t
    else (k', v') :: tableSet k v t

/-- Keys strictly rising from `lo`, each below 65536 (R60: 65,536 byte addresses). -/
def tableFrom {α : Type} (lo : Nat) : List (Nat × α) → Bool
  | [] => true
  | (k, _) :: t => decide (lo ≤ k) && decide (k < 65536) && tableFrom (k + 1) t

/-- The canonical form of a table. -/
def tableWf {α : Type} (t : List (Nat × α)) : Bool := tableFrom 0 t

/-- The flat backend's store `M`: the bytes the host populated or the core wrote (R61, R62). -/
abbrev Memory := List Host.Cell

/-- The canonical form: addresses strictly rising and below 65536. An unlisted address holds no value of its own (it reads
as the draw `Config.initMem`), so no entry can equal what an unlisted address holds. -/
def Memory.wf (m : Memory) : Bool := tableWf m

/-- The byte the flat backend holds at `a`: the last one written or populated, else the draw `INIT_MEM[a]` (R61, R62, R85). -/
def Memory.byteAt (m : Memory) (a : Addr) : Byte :=
  match tableGet a.toNat m with
  | some v => v
  | none => Config.initMem a

/-- `M[a] <- v` (R61). -/
def Memory.setByte (m : Memory) (a : Addr) (v : Byte) : Memory := tableSet a.toNat v m

/-- The little-endian word at `a`, its high byte at `a +16 1` (R53, R64). -/
def Memory.wordAt (m : Memory) (a : Addr) : Addr := joinBytes (m.byteAt (a + 1)) (m.byteAt a)

end Sys2Proof.Machine
end

