-- ==== Sys2Proof/Machine/State.lean ====
section
/-!
DEFINITION. The machine's state as plain data (spec/10_state.md R20, spec/20_memory.md R61, R70), the reasons a step
stops, and the state after reset (spec/70_reset_and_hazards.md R330).
-/

namespace Sys2Proof.Machine

/-- The fault records (spec/60_exceptions.md R300). Each is final for the run (R301). All are safe: the spec names them. -/
inductive Fault where
  /-- Raised by the instruction `unimplemented`: the opcode byte at `addr` is not in `IMPLEMENTED_OPCODES` (R302). Safe. -/
  | unimplementedOpcode (opcode : Byte) (addr : Addr)
  /-- Raised by any read under the oracle, at an address with no live read expectation (R303). Safe. -/
  | readUndeclared (addr : Addr)
  /-- Raised by any write under the oracle, at an address with no write expectation (R304). Safe. -/
  | writeUndeclared (addr : Addr) (actual : Byte)
  /-- Raised by any write under the oracle whose value is not the expected one (R304). Safe. -/
  | writeMismatch (addr : Addr) (expected actual : Byte)
  /-- Raised at the end of an instruction under the oracle with `ORACLE_REQUIRE_WRITES`: a registered write was not
  performed (R306). Safe. -/
  | writeMissing (addr : Addr) (expected : Byte)
  deriving DecidableEq, Repr

/-- Why a step is not taken. -/
inductive Refusal where
  /-- Raised by `exec` at an instruction that has no meaning yet; no arm answers it now. Safe. -/
  | notModelled (mnemonic : String)
  /-- Raised by `step` in a state whose `run` is `faulted f`: a faulted core takes no step
  (R301, spec/93_implementation_defined.md U6). Safe. -/
  | runFaulted (f : Fault)
  deriving DecidableEq, Repr

/-- `RunState` (spec/10_state.md R36). -/
inductive RunState where
  | running
  | faulted (f : Fault)
  deriving DecidableEq, Repr

/-- The verification oracle's maps (spec/20_memory.md R70), each a table in canonical form. -/
structure Oracle where
  /-- `ExpRead`: the value to return, and whether the expectation is live. -/
  expRead : List (Nat × (Byte × Bool))
  /-- `ExpWrite`: the value required. -/
  expWrite : List (Nat × Byte)
  /-- `Performed`: the addresses written in this instruction. -/
  performed : List (Nat × Unit)
  deriving DecidableEq, Repr

/-- The oracle with nothing registered. -/
def Oracle.empty : Oracle := ⟨[], [], []⟩

/-- The machine's state: the core (R20), the flat backend's memory (R61), the oracle backend (R70), the parameters
(spec/00_scope.md R8), and the model's own counter of draws. -/
structure State where
  /-- A (R21). -/
  a : Byte
  /-- X (R22). -/
  x : Byte
  /-- Y (R23). -/
  y : Byte
  /-- SP (R24). -/
  sp : Byte
  /-- PC (R25). -/
  pc : Addr
  /-- P (R26). -/
  p : Status
  /-- RunState (R36). -/
  run : RunState
  /-- The flat backend (R61). -/
  mem : Memory
  /-- The oracle backend (R70). -/
  oracle : Oracle
  /-- The parameters, which no step changes (notes/assumptions/1.md). -/
  params : Params
  /-- The model's own counter of free register values drawn (notes/assumptions/8.md). -/
  draws : Nat
  deriving DecidableEq, Repr

/-- One step's answer. -/
abbrev Result := Host.Outcome State Fault Refusal

/-- `Reset()` under any parameters, with the host's memory image (spec/70_reset_and_hazards.md R330, R331). -/
def State.fresh (params : Params) (mem : Memory) : State where
  a := params.resetRegs.a
  x := params.resetRegs.x
  y := params.resetRegs.y
  sp := params.resetRegs.sp
  pc := match params.entryMode with
    | .entryPC e => e
    | .resetVector => mem.wordAt 0xFFFC
  p := Status.ofByte params.resetRegs.p
  run := .running
  mem := mem
  oracle := Oracle.empty
  params := params
  draws := 0

/-- The state after reset with the default parameters and nothing populated (spec/10_state.md R40). -/
def State.reset : State := State.fresh Params.default []

end Sys2Proof.Machine
end

