-- ==== Sys2Proof/Machine/Oracle.lean ====
section
/-!
DEFINITION. The verification oracle backend (spec/20_memory.md R70 to R80): registering expectations, and the checked
read, write and end-of-instruction check.
-/

namespace Sys2Proof.Machine

/-- `set_read_target(address, value)`: a live expectation, replacing any earlier one (R71). -/
def setReadTarget (a : Addr) (v : Byte) (o : Oracle) : Oracle :=
  { o with expRead := tableSet a.toNat (v, true) o.expRead }

/-- `set_read_word_target(address, value)`: two byte expectations, low byte first (R72). -/
def setReadWordTarget (a v : Addr) (o : Oracle) : Oracle :=
  setReadTarget (a + 1) (hiByte v) (setReadTarget a (loByte v) o)

/-- `set_write_target(address, value)` (R73). -/
def setWriteTarget (a : Addr) (v : Byte) (o : Oracle) : Oracle :=
  { o with expWrite := tableSet a.toNat v o.expWrite }

/-- The oracle's `read_byte(a)` (R74). Under `ConsumeOnce` the expectation is spent. -/
def oracleRead (policy : ReadPolicy) (a : Addr) (o : Oracle) : Except Fault (Byte × Oracle) :=
  match tableGet a.toNat o.expRead with
  | none => .error (.readUndeclared a)
  | some (_, false) => .error (.readUndeclared a)
  | some (v, true) =>
    match policy with
    | .persistent => .ok (v, o)
    | .consumeOnce => .ok (v, { o with expRead := tableSet a.toNat (v, false) o.expRead })

/-- The oracle's `write_byte(a, v)` (R75). It stores nothing but the fact of the write (R80). -/
def oracleWrite (a : Addr) (v : Byte) (o : Oracle) : Except Fault Oracle :=
  match tableGet a.toNat o.expWrite with
  | none => .error (.writeUndeclared a v)
  | some e =>
    if e = v then .ok { o with performed := tableSet a.toNat () o.performed }
    else .error (.writeMismatch a e v)

/-- The first registered write, in rising address order, that was not performed (R78: "the lowest address is reported"). -/
def firstMissing (done : List (Nat × Unit)) : List (Nat × Byte) → Option (Addr × Byte)
  | [] => none
  | (k, v) :: t =>
    match tableGet k done with
    | some _ => firstMissing done t
    | none => some (BitVec.ofNat 16 k, v)

/-- The end-of-instruction check (R78), made only under `ORACLE_REQUIRE_WRITES`. -/
def missingWrite (require : Bool) (o : Oracle) : Option (Addr × Byte) :=
  if require then firstMissing o.performed o.expWrite else none

end Sys2Proof.Machine
end

