-- ==== Sys2Proof/Machine/Ops.lean ====
section
/-!
DEFINITION. The named operations over memory, registers and the stack (spec/00_scope.md R12, R13; spec/20_memory.md R50
to R54), taking the BRK trap and returning from it (spec/60_exceptions.md R310, R311), fetching an instruction's bytes
(spec/40_execution.md R120, R121) and what ends an instruction (spec/20_memory.md R70, R78).

An operation answers the fault of the first access that violates, or a value and the state after it, so the order of
the accesses is the order of the lines (R15, R77).
-/

namespace Sys2Proof.Machine

/-- `read_byte(a)` of the installed backend (R51, R55, R61, R74). -/
def readByte (a : Addr) (s : State) : Except Fault (Byte × State) :=
  match s.params.backend with
  | .flat => .ok (s.mem.byteAt a, s)
  | .oracle =>
    match oracleRead s.params.readPolicy a s.oracle with
    | .error f => .error f
    | .ok (v, o) => .ok (v, { s with oracle := o })

/-- `write_byte(a, v)` of the installed backend (R52, R55, R61, R75). -/
def writeByte (a : Addr) (v : Byte) (s : State) : Except Fault State :=
  match s.params.backend with
  | .flat => .ok { s with mem := s.mem.setByte a v }
  | .oracle =>
    match oracleWrite a v s.oracle with
    | .error f => .error f
    | .ok o => .ok { s with oracle := o }

/-- `read_word(a)`: the low byte at `a`, then the high byte at `a +16 1` (R53). -/
def readWord (a : Addr) (s : State) : Except Fault (Addr × State) := do
  let (lo, s) ← readByte a s
  let (hi, s) ← readByte (a + 1) s
  .ok (joinBytes hi lo, s)

/-- `write_word(a, v)`: the low byte at `a`, then the high byte at `a +16 1` (R54). No instruction issues it. -/
def writeWord (a v : Addr) (s : State) : Except Fault State := do
  let s ← writeByte a (loByte v) s
  writeByte (a + 1) (hiByte v) s

/-- `Fetch8()` (R13): the byte at PC, PC advanced modulo 65536. -/
def fetch8 (s : State) : Except Fault (Byte × State) := do
  let (v, s) ← readByte s.pc s
  .ok (v, { s with pc := s.pc + 1 })

/-- `Fetch16()` (R13): low byte first. -/
def fetch16 (s : State) : Except Fault (Addr × State) := do
  let (lo, s) ← fetch8 s
  let (hi, s) ← fetch8 s
  .ok (joinBytes hi lo, s)

/-- The stack page's byte for a value of SP: `0x0100 +16 zext_16(SP)` (R13; spec/10_state.md R24). -/
def stackAddr (sp : Byte) : Addr := 0x0100 + zext16 sp

/-- `Push(v)` (R13): write, then decrement SP. -/
def push (v : Byte) (s : State) : Except Fault State := do
  let s ← writeByte (stackAddr s.sp) v s
  .ok { s with sp := s.sp - 1 }

/-- `Pull()` (R13): increment SP, then read. -/
def pull (s : State) : Except Fault (Byte × State) := readByte (stackAddr (s.sp + 1)) { s with sp := s.sp + 1 }

/-- A 16-bit value is pushed high byte first (spec/44_control.md R231). -/
def pushWord (w : Addr) (s : State) : Except Fault State := do
  let s ← push (hiByte w) s
  push (loByte w) s

/-- A 16-bit value is pulled low byte first (spec/44_control.md R232, R233). -/
def pullWord (s : State) : Except Fault (Addr × State) := do
  let (lo, s) ← pull s
  let (hi, s) ← pull s
  .ok (joinBytes hi lo, s)

/-- The BRK vector's address (spec/44_control.md R234). -/
def breakVector : Addr := 0xFFFE

/-- Taking the BRK trap (spec/44_control.md R235, spec/60_exceptions.md R310), from PC = opaddr + 1: push opaddr + 2 and
`P | 0x30`, set I, take PC from the vector, low byte first. The padding byte is not read. -/
def takeBreak (s : State) : Except Fault State := do
  let s ← pushWord (s.pc + 1) s
  let s ← push s.p.pushByte s
  let s := { s with p := { s.p with i := true } }
  let (lo, s) ← readByte breakVector s
  let (hi, s) ← readByte (breakVector + 1) s
  .ok { s with pc := joinBytes hi lo }

/-- Returning from the trap (spec/44_control.md R233, spec/60_exceptions.md R311): pull P, whose bits 5 and 4 are ignored,
then PC. -/
def returnFromBreak (s : State) : Except Fault State := do
  let (v, s) ← pull s
  let s := { s with p := Status.ofByte v }
  let (w, s) ← pullWord s
  .ok { s with pc := w }

/-- Fetching one instruction (spec/40_execution.md R120, R121): the opcode byte, then the operand bytes its mode has. A byte
outside `IMPLEMENTED_OPCODES` is the unimplemented instruction, and no operand byte is read (R121). PC is left at
PC_next. -/
def fetchInstr (s : State) : Except Fault (Instr × State) := do
  let (op, s) ← fetch8 s
  if s.params.implemented.contains op then
    match decodeOpcode op with
    | .op0 i => .ok (i, s)
    | .op1 k => do
      let (b, s) ← fetch8 s
      .ok (k b, s)
    | .op2 k => do
      let (w, s) ← fetch16 s
      .ok (k w, s)
  else .ok (.unimplemented op, s)

/-- What ends an instruction without a violation: under the oracle, the check for registered writes not performed
(spec/20_memory.md R78), and the oracle's state is discarded (R70; notes/assumptions/9.md). -/
def endInstruction (s : State) : Except Fault State :=
  match s.params.backend with
  | .flat => .ok s
  | .oracle =>
    match missingWrite s.params.requireWrites s.oracle with
    | some (a, v) => .error (.writeMissing a v)
    | none => .ok { s with oracle := Oracle.empty }

/-- An instruction's answer: the next state, or the first fault (spec/60_exceptions.md R308). -/
def finish (r : Except Fault State) : Result :=
  match r with
  | .ok s => .next s
  | .error f => .fault f

/-- The end of a step, after the instruction's own answer (R120). -/
def endStep (r : Result) : Result :=
  match r with
  | .next s => finish (endInstruction s)
  | .fault f => .fault f
  | .refused q => .refused q

/-- The host makes one byte readable at `a` (spec/60_exceptions.md R313 (a); spec/70_reset_and_hazards.md R332, R333): it populates
the flat backend, or registers an expected read with the oracle. -/
def placeByte (a : Addr) (v : Byte) (s : State) : State :=
  match s.params.backend with
  | .flat => { s with mem := s.mem.setByte a v }
  | .oracle => { s with oracle := setReadTarget a v s.oracle }

/-- The host makes consecutive bytes readable from `a` on. -/
def placeBytes : List Byte → Addr → State → State
  | [], _, s => s
  | b :: t, a, s => placeBytes t (a + 1) (placeByte a b s)

end Sys2Proof.Machine
end

