-- ==== Sys2Proof/Machine/Operands.lean ====
section
/-!
DEFINITION. The addressing-mode resolver (spec/40_execution.md R130 to R142) and the operand access helpers (R124, R125).

R124's operand descriptors are split by type, so that no helper meets a mode its mnemonic does not have: `Loc` is
`Mem(a)` or `Acc`; `Target(a)` is the address that `relativeTarget`, `indirectTarget` or the Absolute operand gives;
`None` is no operand. The operand bytes are fetched already (Ops.fetchInstr), the Immediate byte among them
(C12; notes/assumptions/6.md), and PC is PC_next.
-/

namespace Sys2Proof.Machine

/-- Where an operand is read or written: `Acc` or `Mem(a)` (R124). -/
inductive Loc where
  | acc
  | mem (a : Addr)
  deriving DecidableEq, Repr

/-- The addressing modes whose operand is a location, with their operand field (R101, R131 to R136, R138, R139, R142). -/
inductive LocMode where
  | accumulator
  | zeroPage (zp : Byte)
  | zeroPageX (zp : Byte)
  | zeroPageY (zp : Byte)
  | absolute (addr : Addr)
  | absoluteX (addr : Addr)
  | absoluteY (addr : Addr)
  | indirectX (zp : Byte)
  | indirectY (zp : Byte)
  deriving DecidableEq, Repr

/-- The source of an instruction that only reads: the Immediate byte (R141), or a location. -/
inductive Source where
  | immediate (v : Byte)
  | loc (m : LocMode)
  deriving DecidableEq, Repr

/-- The address of a zero-page pointer's second byte: wrapped in zero page, or the next 16-bit address
(`IZX_PTR_WRAP`, `IZY_PTR_WRAP`; R138, R139). -/
def pointerHigh (wrap : Bool) (q : Byte) : Addr := if wrap then zext16 (q + 1) else zext16 q + 1

/-- A zero-page pointer's word, low byte first (R138, R139). -/
def readPointer (wrap : Bool) (q : Byte) (s : State) : Except Fault (Addr × State) := do
  let (lo, s) ← readByte (zext16 q) s
  let (hi, s) ← readByte (pointerHigh wrap q) s
  .ok (joinBytes hi lo, s)

/-- `Resolve` for a location (R130): it writes no memory and no register. -/
def resolve (m : LocMode) (s : State) : Except Fault (Loc × State) :=
  match m with
  | .accumulator => .ok (.acc, s)                                       -- R142
  | .zeroPage b => .ok (.mem (zext16 b), s)                             -- R131
  | .zeroPageX b => .ok (.mem (zext16 (b + s.x)), s)                    -- R132
  | .zeroPageY b => .ok (.mem (zext16 (b + s.y)), s)                    -- R133
  | .absolute a => .ok (.mem a, s)                                      -- R134
  | .absoluteX a => .ok (.mem (a + zext16 s.x), s)                      -- R135
  | .absoluteY a => .ok (.mem (a + zext16 s.y), s)                      -- R136
  | .indirectX b => do                                                  -- R138
    let (w, s) ← readPointer s.params.izxPtrWrap (b + s.x) s
    .ok (.mem w, s)
  | .indirectY b => do                                                  -- R139
    let (w, s) ← readPointer s.params.izyPtrWrap b s
    .ok (.mem (w + zext16 s.y), s)

/-- The address of the high byte that JMP (abs) reads: the same page, low byte wrapped (R137). -/
def indirectHigh (p : Addr) : Addr := (p &&& 0xFF00) ||| zext16 (loByte p + 1)

/-- The target of JMP (abs), with the page bug (R137). -/
def indirectTarget (p : Addr) (s : State) : Except Fault (Addr × State) := do
  let (lo, s) ← readByte p s
  let (hi, s) ← readByte (indirectHigh p) s
  .ok (joinBytes hi lo, s)

/-- The target of a branch: `PC_next +16 sext_16(off8)` (R140). -/
def relativeTarget (pcNext : Addr) (off : Byte) : Addr := pcNext + sext16 off

/-- `ReadOp` (R125). -/
def readLoc (l : Loc) (s : State) : Except Fault (Byte × State) :=
  match l with
  | .acc => .ok (s.a, s)
  | .mem a => readByte a s

/-- `WriteOp` (R125). -/
def writeLoc (l : Loc) (v : Byte) (s : State) : Except Fault State :=
  match l with
  | .acc => .ok { s with a := v }
  | .mem a => writeByte a v s

/-- Resolving and reading a source operand once. -/
def readSource (src : Source) (s : State) : Except Fault (Byte × State) :=
  match src with
  | .immediate v => .ok (v, s)
  | .loc m => do
    let (l, s) ← resolve m s
    readLoc l s

end Sys2Proof.Machine
end

