-- ==== Sys2Proof/Machine/Alu.lean ====
section
/-!
DEFINITION. ALU instructions (spec/42_alu.md R180 to R190): one operation a mnemonic, written over the operand
(spec/40_execution.md R123), and one meaning an opcode. The adder and the comparator are in Flags.lean.
-/

namespace Sys2Proof.Machine

/-- ADC (R182). -/
def adc (src : Source) (s : State) : Except Fault State := do
  let (m, s) ← readSource src s
  let t := addWithCarry s.a m s.p.c
  .ok { s with a := t.r, p := s.p.setSum t }

/-- SBC: the adder on `~m` (R183; C1, C2). -/
def sbc (src : Source) (s : State) : Except Fault State := do
  let (m, s) ← readSource src s
  let t := addWithCarry s.a (~~~m) s.p.c
  .ok { s with a := t.r, p := s.p.setSum t }

/-- A logic operation on the accumulator: Z and N from the result (R184 to R186). -/
def logic (f : Byte → Byte → Byte) (src : Source) (s : State) : Except Fault State := do
  let (m, s) ← readSource src s
  .ok { s with a := f s.a m, p := s.p.setZN (f s.a m) }

/-- AND (R184). -/
def andOp (src : Source) (s : State) : Except Fault State := logic (fun a m => a &&& m) src s

/-- ORA (R185). -/
def oraOp (src : Source) (s : State) : Except Fault State := logic (fun a m => a ||| m) src s

/-- EOR (R186). -/
def eorOp (src : Source) (s : State) : Except Fault State := logic (fun a m => a ^^^ m) src s

/-- CMP (R187). -/
def cmp (src : Source) (s : State) : Except Fault State := do
  let (m, s) ← readSource src s
  .ok { s with p := s.p.compare s.a m }

/-- CPX (R188). -/
def cpx (src : Source) (s : State) : Except Fault State := do
  let (m, s) ← readSource src s
  .ok { s with p := s.p.compare s.x m }

/-- CPY (R189). -/
def cpy (src : Source) (s : State) : Except Fault State := do
  let (m, s) ← readSource src s
  .ok { s with p := s.p.compare s.y m }

/-- BIT (R190). -/
def bitOp (src : Source) (s : State) : Except Fault State := do
  let (m, s) ← readSource src s
  .ok { s with p := s.p.bitTest s.a m }

/-- `ADC #imm` (R182, R141). -/
def execAdcImm (imm : Byte) (s : State) : Result := finish (adc (.immediate imm) s)

/-- `ADC zp` (R182, R131). -/
def execAdcZp (zp : Byte) (s : State) : Result := finish (adc (.loc (.zeroPage zp)) s)

/-- `ADC zp,X` (R182, R132). -/
def execAdcZpX (zp : Byte) (s : State) : Result := finish (adc (.loc (.zeroPageX zp)) s)

/-- `ADC abs` (R182, R134). -/
def execAdcAbs (addr : Addr) (s : State) : Result := finish (adc (.loc (.absolute addr)) s)

/-- `ADC abs,X` (R182, R135). -/
def execAdcAbsX (addr : Addr) (s : State) : Result := finish (adc (.loc (.absoluteX addr)) s)

/-- `ADC abs,Y` (R182, R136). -/
def execAdcAbsY (addr : Addr) (s : State) : Result := finish (adc (.loc (.absoluteY addr)) s)

/-- `ADC (zp,X)` (R182, R138). -/
def execAdcIndX (zp : Byte) (s : State) : Result := finish (adc (.loc (.indirectX zp)) s)

/-- `ADC (zp),Y` (R182, R139). -/
def execAdcIndY (zp : Byte) (s : State) : Result := finish (adc (.loc (.indirectY zp)) s)

/-- `SBC #imm` (R183, R141). -/
def execSbcImm (imm : Byte) (s : State) : Result := finish (sbc (.immediate imm) s)

/-- `SBC zp` (R183, R131). -/
def execSbcZp (zp : Byte) (s : State) : Result := finish (sbc (.loc (.zeroPage zp)) s)

/-- `SBC zp,X` (R183, R132). -/
def execSbcZpX (zp : Byte) (s : State) : Result := finish (sbc (.loc (.zeroPageX zp)) s)

/-- `SBC abs` (R183, R134). -/
def execSbcAbs (addr : Addr) (s : State) : Result := finish (sbc (.loc (.absolute addr)) s)

/-- `SBC abs,X` (R183, R135). -/
def execSbcAbsX (addr : Addr) (s : State) : Result := finish (sbc (.loc (.absoluteX addr)) s)

/-- `SBC abs,Y` (R183, R136). -/
def execSbcAbsY (addr : Addr) (s : State) : Result := finish (sbc (.loc (.absoluteY addr)) s)

/-- `SBC (zp,X)` (R183, R138). -/
def execSbcIndX (zp : Byte) (s : State) : Result := finish (sbc (.loc (.indirectX zp)) s)

/-- `SBC (zp),Y` (R183, R139). -/
def execSbcIndY (zp : Byte) (s : State) : Result := finish (sbc (.loc (.indirectY zp)) s)

/-- `AND #imm` (R184, R141). -/
def execAndImm (imm : Byte) (s : State) : Result := finish (andOp (.immediate imm) s)

/-- `AND zp` (R184, R131). -/
def execAndZp (zp : Byte) (s : State) : Result := finish (andOp (.loc (.zeroPage zp)) s)

/-- `AND zp,X` (R184, R132). -/
def execAndZpX (zp : Byte) (s : State) : Result := finish (andOp (.loc (.zeroPageX zp)) s)

/-- `AND abs` (R184, R134). -/
def execAndAbs (addr : Addr) (s : State) : Result := finish (andOp (.loc (.absolute addr)) s)

/-- `AND abs,X` (R184, R135). -/
def execAndAbsX (addr : Addr) (s : State) : Result := finish (andOp (.loc (.absoluteX addr)) s)

/-- `AND abs,Y` (R184, R136). -/
def execAndAbsY (addr : Addr) (s : State) : Result := finish (andOp (.loc (.absoluteY addr)) s)

/-- `AND (zp,X)` (R184, R138). -/
def execAndIndX (zp : Byte) (s : State) : Result := finish (andOp (.loc (.indirectX zp)) s)

/-- `AND (zp),Y` (R184, R139). -/
def execAndIndY (zp : Byte) (s : State) : Result := finish (andOp (.loc (.indirectY zp)) s)

/-- `ORA #imm` (R185, R141). -/
def execOraImm (imm : Byte) (s : State) : Result := finish (oraOp (.immediate imm) s)

/-- `ORA zp` (R185, R131). -/
def execOraZp (zp : Byte) (s : State) : Result := finish (oraOp (.loc (.zeroPage zp)) s)

/-- `ORA zp,X` (R185, R132). -/
def execOraZpX (zp : Byte) (s : State) : Result := finish (oraOp (.loc (.zeroPageX zp)) s)

/-- `ORA abs` (R185, R134). -/
def execOraAbs (addr : Addr) (s : State) : Result := finish (oraOp (.loc (.absolute addr)) s)

/-- `ORA abs,X` (R185, R135). -/
def execOraAbsX (addr : Addr) (s : State) : Result := finish (oraOp (.loc (.absoluteX addr)) s)

/-- `ORA abs,Y` (R185, R136). -/
def execOraAbsY (addr : Addr) (s : State) : Result := finish (oraOp (.loc (.absoluteY addr)) s)

/-- `ORA (zp,X)` (R185, R138). -/
def execOraIndX (zp : Byte) (s : State) : Result := finish (oraOp (.loc (.indirectX zp)) s)

/-- `ORA (zp),Y` (R185, R139). -/
def execOraIndY (zp : Byte) (s : State) : Result := finish (oraOp (.loc (.indirectY zp)) s)

/-- `EOR #imm` (R186, R141). -/
def execEorImm (imm : Byte) (s : State) : Result := finish (eorOp (.immediate imm) s)

/-- `EOR zp` (R186, R131). -/
def execEorZp (zp : Byte) (s : State) : Result := finish (eorOp (.loc (.zeroPage zp)) s)

/-- `EOR zp,X` (R186, R132). -/
def execEorZpX (zp : Byte) (s : State) : Result := finish (eorOp (.loc (.zeroPageX zp)) s)

/-- `EOR abs` (R186, R134). -/
def execEorAbs (addr : Addr) (s : State) : Result := finish (eorOp (.loc (.absolute addr)) s)

/-- `EOR abs,X` (R186, R135). -/
def execEorAbsX (addr : Addr) (s : State) : Result := finish (eorOp (.loc (.absoluteX addr)) s)

/-- `EOR abs,Y` (R186, R136). -/
def execEorAbsY (addr : Addr) (s : State) : Result := finish (eorOp (.loc (.absoluteY addr)) s)

/-- `EOR (zp,X)` (R186, R138). -/
def execEorIndX (zp : Byte) (s : State) : Result := finish (eorOp (.loc (.indirectX zp)) s)

/-- `EOR (zp),Y` (R186, R139). -/
def execEorIndY (zp : Byte) (s : State) : Result := finish (eorOp (.loc (.indirectY zp)) s)

/-- `CMP #imm` (R187, R141). -/
def execCmpImm (imm : Byte) (s : State) : Result := finish (cmp (.immediate imm) s)

/-- `CMP zp` (R187, R131). -/
def execCmpZp (zp : Byte) (s : State) : Result := finish (cmp (.loc (.zeroPage zp)) s)

/-- `CMP zp,X` (R187, R132). -/
def execCmpZpX (zp : Byte) (s : State) : Result := finish (cmp (.loc (.zeroPageX zp)) s)

/-- `CMP abs` (R187, R134). -/
def execCmpAbs (addr : Addr) (s : State) : Result := finish (cmp (.loc (.absolute addr)) s)

/-- `CMP abs,X` (R187, R135). -/
def execCmpAbsX (addr : Addr) (s : State) : Result := finish (cmp (.loc (.absoluteX addr)) s)

/-- `CMP abs,Y` (R187, R136). -/
def execCmpAbsY (addr : Addr) (s : State) : Result := finish (cmp (.loc (.absoluteY addr)) s)

/-- `CMP (zp,X)` (R187, R138). -/
def execCmpIndX (zp : Byte) (s : State) : Result := finish (cmp (.loc (.indirectX zp)) s)

/-- `CMP (zp),Y` (R187, R139). -/
def execCmpIndY (zp : Byte) (s : State) : Result := finish (cmp (.loc (.indirectY zp)) s)

/-- `CPX #imm` (R188, R141). -/
def execCpxImm (imm : Byte) (s : State) : Result := finish (cpx (.immediate imm) s)

/-- `CPX zp` (R188, R131). -/
def execCpxZp (zp : Byte) (s : State) : Result := finish (cpx (.loc (.zeroPage zp)) s)

/-- `CPX abs` (R188, R134). -/
def execCpxAbs (addr : Addr) (s : State) : Result := finish (cpx (.loc (.absolute addr)) s)

/-- `CPY #imm` (R189, R141). -/
def execCpyImm (imm : Byte) (s : State) : Result := finish (cpy (.immediate imm) s)

/-- `CPY zp` (R189, R131). -/
def execCpyZp (zp : Byte) (s : State) : Result := finish (cpy (.loc (.zeroPage zp)) s)

/-- `CPY abs` (R189, R134). -/
def execCpyAbs (addr : Addr) (s : State) : Result := finish (cpy (.loc (.absolute addr)) s)

/-- `BIT zp` (R190, R131). -/
def execBitZp (zp : Byte) (s : State) : Result := finish (bitOp (.loc (.zeroPage zp)) s)

/-- `BIT abs` (R190, R134). -/
def execBitAbs (addr : Addr) (s : State) : Result := finish (bitOp (.loc (.absolute addr)) s)

end Sys2Proof.Machine
end

