-- ==== Sys2Proof/Machine/Control.lean ====
section
/-!
DEFINITION. Control transfer (spec/44_control.md R220 to R235), and the unimplemented instruction
(spec/60_exceptions.md R302). PC is PC_next when a meaning starts. The BRK trap and the return from it are in Ops.lean.
-/

namespace Sys2Proof.Machine

/-- A branch (R220): taken to the Relative target, or not. -/
def branch (cond : Bool) (off : Byte) (s : State) : State :=
  if cond then { s with pc := relativeTarget s.pc off } else s

/-- `BCC rel` (R221, R140). -/
def execBcc (off : Byte) (s : State) : Result := .next (branch (!s.p.c) off s)

/-- `BCS rel` (R222, R140). -/
def execBcs (off : Byte) (s : State) : Result := .next (branch s.p.c off s)

/-- `BEQ rel` (R223, R140). -/
def execBeq (off : Byte) (s : State) : Result := .next (branch s.p.z off s)

/-- `BNE rel` (R224, R140). -/
def execBne (off : Byte) (s : State) : Result := .next (branch (!s.p.z) off s)

/-- `BMI rel` (R225, R140). -/
def execBmi (off : Byte) (s : State) : Result := .next (branch s.p.n off s)

/-- `BPL rel` (R226, R140). -/
def execBpl (off : Byte) (s : State) : Result := .next (branch (!s.p.n) off s)

/-- `BVC rel` (R227, R140). -/
def execBvc (off : Byte) (s : State) : Result := .next (branch (!s.p.v) off s)

/-- `BVS rel` (R228, R140). -/
def execBvs (off : Byte) (s : State) : Result := .next (branch s.p.v off s)

/-- JMP (abs): PC from the pointer read with the page bug (R229, R137). -/
def jumpIndirect (ptr : Addr) (s : State) : Except Fault State := do
  let (t, s) ← indirectTarget ptr s
  .ok { s with pc := t }

/-- JSR (R230): push the address of its last byte, high byte first. -/
def callTo (addr : Addr) (s : State) : Except Fault State := do
  let s ← pushWord (s.pc - 1) s
  .ok { s with pc := addr }

/-- RTS (R232): PC is the pulled word plus 1. -/
def returnFromCall (s : State) : Except Fault State := do
  let (w, s) ← pullWord s
  .ok { s with pc := w + 1 }

/-- `JMP abs` (R229, R134). -/
def execJmpAbs (addr : Addr) (s : State) : Result := .next { s with pc := addr }

/-- `JMP (abs)` (R229, R137). -/
def execJmpInd (ptr : Addr) (s : State) : Result := finish (jumpIndirect ptr s)

/-- `JSR abs` (R230, R134). -/
def execJsr (addr : Addr) (s : State) : Result := finish (callTo addr s)

/-- `RTS` (R232). -/
def execRts (s : State) : Result := finish (returnFromCall s)

/-- `RTI` (R233). -/
def execRti (s : State) : Result := finish (returnFromBreak s)

/-- `BRK` (R235). -/
def execBrk (s : State) : Result := finish (takeBreak s)

/-- A byte with no defined behaviour: the fault UnimplementedOpcode, with the byte and its address (R302, R106). PC has been
advanced past it, so its address is PC - 1. -/
def execUnimplemented (op : Byte) (s : State) : Result := .fault (.unimplementedOpcode op (s.pc - 1))

end Sys2Proof.Machine
end

