-- ==== Sys2Proof/Machine/LoadStore.lean ====
section
/-!
DEFINITION. Loads and stores (spec/41_load_store.md R160 to R166): one operation a mnemonic, written over the operand
(spec/40_execution.md R123), and one meaning an opcode.
-/

namespace Sys2Proof.Machine

/-- LDA (R161). -/
def lda (src : Source) (s : State) : Except Fault State := do
  let (v, s) ← readSource src s
  .ok { s with a := v, p := s.p.setZN v }

/-- LDX (R162). -/
def ldx (src : Source) (s : State) : Except Fault State := do
  let (v, s) ← readSource src s
  .ok { s with x := v, p := s.p.setZN v }

/-- LDY (R163). -/
def ldy (src : Source) (s : State) : Except Fault State := do
  let (v, s) ← readSource src s
  .ok { s with y := v, p := s.p.setZN v }

/-- STA, STX and STY write one register's byte, with no data read and no flag (R160, R164 to R166). -/
def store (m : LocMode) (v : Byte) (s : State) : Except Fault State := do
  let (l, s) ← resolve m s
  writeLoc l v s

/-- STA (R164). -/
def sta (m : LocMode) (s : State) : Except Fault State := store m s.a s

/-- STX (R165). -/
def stx (m : LocMode) (s : State) : Except Fault State := store m s.x s

/-- STY (R166). -/
def sty (m : LocMode) (s : State) : Except Fault State := store m s.y s

/-- `LDA #imm` (R161, R141). -/
def execLdaImm (imm : Byte) (s : State) : Result := finish (lda (.immediate imm) s)

/-- `LDA zp` (R161, R131). -/
def execLdaZp (zp : Byte) (s : State) : Result := finish (lda (.loc (.zeroPage zp)) s)

/-- `LDA zp,X` (R161, R132). -/
def execLdaZpX (zp : Byte) (s : State) : Result := finish (lda (.loc (.zeroPageX zp)) s)

/-- `LDA abs` (R161, R134). -/
def execLdaAbs (addr : Addr) (s : State) : Result := finish (lda (.loc (.absolute addr)) s)

/-- `LDA abs,X` (R161, R135). -/
def execLdaAbsX (addr : Addr) (s : State) : Result := finish (lda (.loc (.absoluteX addr)) s)

/-- `LDA abs,Y` (R161, R136). -/
def execLdaAbsY (addr : Addr) (s : State) : Result := finish (lda (.loc (.absoluteY addr)) s)

/-- `LDA (zp,X)` (R161, R138). -/
def execLdaIndX (zp : Byte) (s : State) : Result := finish (lda (.loc (.indirectX zp)) s)

/-- `LDA (zp),Y` (R161, R139). -/
def execLdaIndY (zp : Byte) (s : State) : Result := finish (lda (.loc (.indirectY zp)) s)

/-- `LDX #imm` (R162, R141). -/
def execLdxImm (imm : Byte) (s : State) : Result := finish (ldx (.immediate imm) s)

/-- `LDX zp` (R162, R131). -/
def execLdxZp (zp : Byte) (s : State) : Result := finish (ldx (.loc (.zeroPage zp)) s)

/-- `LDX zp,Y` (R162, R133). -/
def execLdxZpY (zp : Byte) (s : State) : Result := finish (ldx (.loc (.zeroPageY zp)) s)

/-- `LDX abs` (R162, R134). -/
def execLdxAbs (addr : Addr) (s : State) : Result := finish (ldx (.loc (.absolute addr)) s)

/-- `LDX abs,Y` (R162, R136). -/
def execLdxAbsY (addr : Addr) (s : State) : Result := finish (ldx (.loc (.absoluteY addr)) s)

/-- `LDY #imm` (R163, R141). -/
def execLdyImm (imm : Byte) (s : State) : Result := finish (ldy (.immediate imm) s)

/-- `LDY zp` (R163, R131). -/
def execLdyZp (zp : Byte) (s : State) : Result := finish (ldy (.loc (.zeroPage zp)) s)

/-- `LDY zp,X` (R163, R132). -/
def execLdyZpX (zp : Byte) (s : State) : Result := finish (ldy (.loc (.zeroPageX zp)) s)

/-- `LDY abs` (R163, R134). -/
def execLdyAbs (addr : Addr) (s : State) : Result := finish (ldy (.loc (.absolute addr)) s)

/-- `LDY abs,X` (R163, R135). -/
def execLdyAbsX (addr : Addr) (s : State) : Result := finish (ldy (.loc (.absoluteX addr)) s)

/-- `STA zp` (R164, R131). -/
def execStaZp (zp : Byte) (s : State) : Result := finish (sta (.zeroPage zp) s)

/-- `STA zp,X` (R164, R132). -/
def execStaZpX (zp : Byte) (s : State) : Result := finish (sta (.zeroPageX zp) s)

/-- `STA abs` (R164, R134). -/
def execStaAbs (addr : Addr) (s : State) : Result := finish (sta (.absolute addr) s)

/-- `STA abs,X` (R164, R135). -/
def execStaAbsX (addr : Addr) (s : State) : Result := finish (sta (.absoluteX addr) s)

/-- `STA abs,Y` (R164, R136). -/
def execStaAbsY (addr : Addr) (s : State) : Result := finish (sta (.absoluteY addr) s)

/-- `STA (zp,X)` (R164, R138). -/
def execStaIndX (zp : Byte) (s : State) : Result := finish (sta (.indirectX zp) s)

/-- `STA (zp),Y` (R164, R139). -/
def execStaIndY (zp : Byte) (s : State) : Result := finish (sta (.indirectY zp) s)

/-- `STX zp` (R165, R131). -/
def execStxZp (zp : Byte) (s : State) : Result := finish (stx (.zeroPage zp) s)

/-- `STX zp,Y` (R165, R133). -/
def execStxZpY (zp : Byte) (s : State) : Result := finish (stx (.zeroPageY zp) s)

/-- `STX abs` (R165, R134). -/
def execStxAbs (addr : Addr) (s : State) : Result := finish (stx (.absolute addr) s)

/-- `STY zp` (R166, R131). -/
def execStyZp (zp : Byte) (s : State) : Result := finish (sty (.zeroPage zp) s)

/-- `STY zp,X` (R166, R132). -/
def execStyZpX (zp : Byte) (s : State) : Result := finish (sty (.zeroPageX zp) s)

/-- `STY abs` (R166, R134). -/
def execStyAbs (addr : Addr) (s : State) : Result := finish (sty (.absolute addr) s)

end Sys2Proof.Machine
end

