-- ==== Sys2Proof/Machine/Shift.lean ====
section
/-!
DEFINITION. Shifts, rotates and memory increment and decrement (spec/43_shift_incdec.md R200 to R206): one read and one
write of the operand (R200), one operation a mnemonic and one meaning an opcode. The shifts are in Flags.lean.
-/

namespace Sys2Proof.Machine

/-- A shift or rotate of the operand: read, write the result, C from the bit shifted out, Z and N (R200 to R204). -/
def shift (f : Byte → Bool → Shifted) (m : LocMode) (s : State) : Except Fault State := do
  let (l, s) ← resolve m s
  let (v, s) ← readLoc l s
  let t := f v s.p.c
  let s ← writeLoc l t.r s
  .ok { s with p := s.p.setShift t }

/-- ASL (R201). -/
def asl (m : LocMode) (s : State) : Except Fault State := shift shiftAsl m s

/-- LSR (R202). -/
def lsr (m : LocMode) (s : State) : Except Fault State := shift shiftLsr m s

/-- ROL (R203). -/
def rol (m : LocMode) (s : State) : Except Fault State := shift shiftRol m s

/-- ROR (R204). -/
def ror (m : LocMode) (s : State) : Except Fault State := shift shiftRor m s

/-- A change of the operand that touches no carry: read, write the result, Z and N (R205, R206). -/
def bump (f : Byte → Byte) (m : LocMode) (s : State) : Except Fault State := do
  let (l, s) ← resolve m s
  let (v, s) ← readLoc l s
  let s ← writeLoc l (f v) s
  .ok { s with p := s.p.setZN (f v) }

/-- INC (R205). -/
def inc (m : LocMode) (s : State) : Except Fault State := bump (fun v => v + 1) m s

/-- DEC (R206). -/
def dec (m : LocMode) (s : State) : Except Fault State := bump (fun v => v - 1) m s

/-- `ASL A` (R201, R142). -/
def execAslA (s : State) : Result := finish (asl .accumulator s)

/-- `ASL zp` (R201, R131). -/
def execAslZp (zp : Byte) (s : State) : Result := finish (asl (.zeroPage zp) s)

/-- `ASL zp,X` (R201, R132). -/
def execAslZpX (zp : Byte) (s : State) : Result := finish (asl (.zeroPageX zp) s)

/-- `ASL abs` (R201, R134). -/
def execAslAbs (addr : Addr) (s : State) : Result := finish (asl (.absolute addr) s)

/-- `ASL abs,X` (R201, R135). -/
def execAslAbsX (addr : Addr) (s : State) : Result := finish (asl (.absoluteX addr) s)

/-- `LSR A` (R202, R142). -/
def execLsrA (s : State) : Result := finish (lsr .accumulator s)

/-- `LSR zp` (R202, R131). -/
def execLsrZp (zp : Byte) (s : State) : Result := finish (lsr (.zeroPage zp) s)

/-- `LSR zp,X` (R202, R132). -/
def execLsrZpX (zp : Byte) (s : State) : Result := finish (lsr (.zeroPageX zp) s)

/-- `LSR abs` (R202, R134). -/
def execLsrAbs (addr : Addr) (s : State) : Result := finish (lsr (.absolute addr) s)

/-- `LSR abs,X` (R202, R135). -/
def execLsrAbsX (addr : Addr) (s : State) : Result := finish (lsr (.absoluteX addr) s)

/-- `ROL A` (R203, R142). -/
def execRolA (s : State) : Result := finish (rol .accumulator s)

/-- `ROL zp` (R203, R131). -/
def execRolZp (zp : Byte) (s : State) : Result := finish (rol (.zeroPage zp) s)

/-- `ROL zp,X` (R203, R132). -/
def execRolZpX (zp : Byte) (s : State) : Result := finish (rol (.zeroPageX zp) s)

/-- `ROL abs` (R203, R134). -/
def execRolAbs (addr : Addr) (s : State) : Result := finish (rol (.absolute addr) s)

/-- `ROL abs,X` (R203, R135). -/
def execRolAbsX (addr : Addr) (s : State) : Result := finish (rol (.absoluteX addr) s)

/-- `ROR A` (R204, R142). -/
def execRorA (s : State) : Result := finish (ror .accumulator s)

/-- `ROR zp` (R204, R131). -/
def execRorZp (zp : Byte) (s : State) : Result := finish (ror (.zeroPage zp) s)

/-- `ROR zp,X` (R204, R132). -/
def execRorZpX (zp : Byte) (s : State) : Result := finish (ror (.zeroPageX zp) s)

/-- `ROR abs` (R204, R134). -/
def execRorAbs (addr : Addr) (s : State) : Result := finish (ror (.absolute addr) s)

/-- `ROR abs,X` (R204, R135). -/
def execRorAbsX (addr : Addr) (s : State) : Result := finish (ror (.absoluteX addr) s)

/-- `INC zp` (R205, R131). -/
def execIncZp (zp : Byte) (s : State) : Result := finish (inc (.zeroPage zp) s)

/-- `INC zp,X` (R205, R132). -/
def execIncZpX (zp : Byte) (s : State) : Result := finish (inc (.zeroPageX zp) s)

/-- `INC abs` (R205, R134). -/
def execIncAbs (addr : Addr) (s : State) : Result := finish (inc (.absolute addr) s)

/-- `INC abs,X` (R205, R135). -/
def execIncAbsX (addr : Addr) (s : State) : Result := finish (inc (.absoluteX addr) s)

/-- `DEC zp` (R206, R131). -/
def execDecZp (zp : Byte) (s : State) : Result := finish (dec (.zeroPage zp) s)

/-- `DEC zp,X` (R206, R132). -/
def execDecZpX (zp : Byte) (s : State) : Result := finish (dec (.zeroPageX zp) s)

/-- `DEC abs` (R206, R134). -/
def execDecAbs (addr : Addr) (s : State) : Result := finish (dec (.absolute addr) s)

/-- `DEC abs,X` (R206, R135). -/
def execDecAbsX (addr : Addr) (s : State) : Result := finish (dec (.absoluteX addr) s)

end Sys2Proof.Machine
end

