-- ==== Sys2Proof/Machine/Single.lean ====
section
/-!
DEFINITION. Single-mode instructions (spec/45_single_mode.md R250 to R272): transfers, stack, flags, register increment
and decrement, NOP. PC is PC_next when a meaning starts.
-/

namespace Sys2Proof.Machine

/-- PLA (R259). -/
def pullA (s : State) : Except Fault State := do
  let (v, s) ← pull s
  .ok { s with a := v, p := s.p.setZN v }

/-- PLP (R260): bits 5 and 4 of the byte are ignored. -/
def pullP (s : State) : Except Fault State := do
  let (v, s) ← pull s
  .ok { s with p := Status.ofByte v }

/-- `TAX` (R251). -/
def execTax (s : State) : Result := .next { s with x := s.a, p := s.p.setZN s.a }

/-- `TAY` (R252). -/
def execTay (s : State) : Result := .next { s with y := s.a, p := s.p.setZN s.a }

/-- `TXA` (R253). -/
def execTxa (s : State) : Result := .next { s with a := s.x, p := s.p.setZN s.x }

/-- `TYA` (R254). -/
def execTya (s : State) : Result := .next { s with a := s.y, p := s.p.setZN s.y }

/-- `TSX` (R255). -/
def execTsx (s : State) : Result := .next { s with x := s.sp, p := s.p.setZN s.sp }

/-- `TXS` (R256). -/
def execTxs (s : State) : Result := .next { s with sp := s.x }

/-- `PHA` (R257). -/
def execPha (s : State) : Result := finish (push s.a s)

/-- `PHP` (R258). -/
def execPhp (s : State) : Result := finish (push s.p.pushByte s)

/-- `PLA` (R259). -/
def execPla (s : State) : Result := finish (pullA s)

/-- `PLP` (R260). -/
def execPlp (s : State) : Result := finish (pullP s)

/-- `CLC` (R261). -/
def execClc (s : State) : Result := .next { s with p := { s.p with c := false } }

/-- `SEC` (R262). -/
def execSec (s : State) : Result := .next { s with p := { s.p with c := true } }

/-- `CLI` (R263). -/
def execCli (s : State) : Result := .next { s with p := { s.p with i := false } }

/-- `SEI` (R264). -/
def execSei (s : State) : Result := .next { s with p := { s.p with i := true } }

/-- `CLD` (R265). -/
def execCld (s : State) : Result := .next { s with p := { s.p with d := false } }

/-- `SED` (R266). -/
def execSed (s : State) : Result := .next { s with p := { s.p with d := true } }

/-- `CLV` (R267). -/
def execClv (s : State) : Result := .next { s with p := { s.p with v := false } }

/-- `INX` (R268). -/
def execInx (s : State) : Result := .next { s with x := s.x + 1, p := s.p.setZN (s.x + 1) }

/-- `INY` (R269). -/
def execIny (s : State) : Result := .next { s with y := s.y + 1, p := s.p.setZN (s.y + 1) }

/-- `DEX` (R270). -/
def execDex (s : State) : Result := .next { s with x := s.x - 1, p := s.p.setZN (s.x - 1) }

/-- `DEY` (R271). -/
def execDey (s : State) : Result := .next { s with y := s.y - 1, p := s.p.setZN (s.y - 1) }

/-- `NOP` (R272). -/
def execNop (s : State) : Result := .next s

end Sys2Proof.Machine
end

