-- ==== Sys2Proof/Machine/Step.lean ====
section
/-!
DEFINITION. One step of the fetch-decode-execute loop (spec/40_execution.md R120).
-/

namespace Sys2Proof.Machine

/-- `Step()` (R120): a running core fetches one instruction, executes it, and ends the instruction; a faulted core takes no
step (spec/60_exceptions.md R301). -/
def step (s : State) : Host.Outcome State Fault Refusal :=
  match s.run with
  | .faulted f => .refused (.runFaulted f)
  | .running =>
    match fetchInstr s with
    | .error f => .fault f
    | .ok (i, t) => endStep (exec i t)

/-- `s` with the instruction of bits `w` (in spec/opcode_table.json's numbering) placed where the next step fetches: at PC
(notes/assumptions/12.md). -/
def State.withFetchWord (s : State) (nbits w : Nat) : State := placeBytes (tableWordBytes nbits w) s.pc s

end Sys2Proof.Machine
end

