-- ==== Sys2Proof/Machine/Bus.lean ====
section
/-!
DEFINITION. The bus contract (spec/20_memory.md R56 to R58): what a memory unit does with the address, data and control
lines. The backends of Ops.lean are reached by the byte contract and reify no lines (R59; notes/assumptions/13.md).
-/

namespace Sys2Proof.Machine

/-- The bus lines (R56): `ctrl` bit 1 is MemEnable, bit 0 is AccessMode (0 store, 1 load). -/
structure BusLines where
  addr : Addr
  data : Byte
  ctrl : BitVec 2
  deriving DecidableEq, Repr

/-- A memory unit's response to the lines (R57): nothing without MemEnable; else a load drives `data`, a store writes. -/
def memoryUnit (l : BusLines) (m : Memory) : BusLines × Memory :=
  match l.ctrl.getLsbD 1, l.ctrl.getLsbD 0 with
  | false, _ => (l, m)
  | true, false => (l, m.setByte l.addr l.data)
  | true, true => ({ l with data := m.byteAt l.addr }, m)

end Sys2Proof.Machine
end

