-- ==== Sys2Proof/Machine/Footprint.lean ====
section
/-!
DEFINITION. The accesses of an instruction in the order the core issues them (spec/40_execution.md R126, R143), with the
memory of the state as the source of pointers and data, and the check of such a list by the oracle
(spec/20_memory.md R77). `exec` does not use this file: that the two agree is a statement about the machine.
-/

namespace Sys2Proof.Machine

/-- One byte access (spec/20_memory.md R66). -/
inductive Access where
  | read (a : Addr)
  | write (a : Addr) (v : Byte)
  deriving DecidableEq, Repr

/-- The pointer reads of a mode, low byte then high byte (R143). -/
def pointerReads (m : LocMode) (s : State) : List Access :=
  match m with
  | .indirectX b => [.read (zext16 (b + s.x)), .read (pointerHigh s.params.izxPtrWrap (b + s.x))]
  | .indirectY b => [.read (zext16 b), .read (pointerHigh s.params.izyPtrWrap b)]
  | _ => []

/-- The word a zero-page pointer holds in the flat memory (R138, R139). -/
def flatPointer (wrap : Bool) (q : Byte) (s : State) : Addr :=
  joinBytes (s.mem.byteAt (pointerHigh wrap q)) (s.mem.byteAt (zext16 q))

/-- The effective address of a mode (R143), none for Accumulator. -/
def flatEa (m : LocMode) (s : State) : Option Addr :=
  match m with
  | .accumulator => none
  | .zeroPage b => some (zext16 b)
  | .zeroPageX b => some (zext16 (b + s.x))
  | .zeroPageY b => some (zext16 (b + s.y))
  | .absolute a => some a
  | .absoluteX a => some (a + zext16 s.x)
  | .absoluteY a => some (a + zext16 s.y)
  | .indirectX b => some (flatPointer s.params.izxPtrWrap (b + s.x) s)
  | .indirectY b => some (flatPointer s.params.izyPtrWrap b s + zext16 s.y)

/-- One read of the operand after the pointer reads. -/
def readAccesses (m : LocMode) (s : State) : List Access :=
  match flatEa m s with
  | some a => pointerReads m s ++ [.read a]
  | none => []

/-- One write of `v` after the pointer reads, and no data read (R164). -/
def storeAccesses (m : LocMode) (v : Byte) (s : State) : List Access :=
  match flatEa m s with
  | some a => pointerReads m s ++ [.write a v]
  | none => []

/-- One read and one write of the operand (spec/43_shift_incdec.md R200). -/
def updateAccesses (f : Byte → Byte) (m : LocMode) (s : State) : List Access :=
  match flatEa m s with
  | some a => pointerReads m s ++ [.read a, .write a (f (s.mem.byteAt a))]
  | none => []

/-- The writes of a 16-bit push, high byte first (spec/44_control.md R231). -/
def pushWordAccesses (w : Addr) (sp : Byte) : List Access :=
  [.write (stackAddr sp) (hiByte w), .write (stackAddr (sp - 1)) (loByte w)]

/-- The accesses of an instruction after its fetch, in order (R126, R143). -/
def accesses (i : Instr) (s : State) : List Access :=
  match i with
  -- Immediate operands are fetched; Accumulator, transfers, flags, branches and JMP abs access nothing more.
  | .ldaImm _ | .ldxImm _ | .ldyImm _ | .adcImm _ | .sbcImm _ | .andImm _ | .oraImm _ | .eorImm _ | .cmpImm _
  | .cpxImm _ | .cpyImm _ | .bcc _ | .bcs _ | .beq _ | .bne _ | .bmi _ | .bpl _ | .bvc _ | .bvs _ | .jmpAbs _
  | .aslA | .lsrA | .rolA | .rorA | .tax | .tay | .txa | .tya | .tsx | .txs | .clc | .sec | .cli | .sei | .cld
  | .sed | .clv | .inx | .iny | .dex | .dey | .nop
  | .unimplemented _ => []
  -- One data read.
  | .ldaZp e | .ldxZp e | .ldyZp e | .adcZp e | .sbcZp e | .andZp e | .oraZp e | .eorZp e | .cmpZp e | .cpxZp e
  | .cpyZp e | .bitZp e => readAccesses (.zeroPage e) s
  | .ldaZpX e | .ldyZpX e | .adcZpX e | .sbcZpX e | .andZpX e | .oraZpX e | .eorZpX e | .cmpZpX e => readAccesses (.zeroPageX e) s
  | .ldxZpY e => readAccesses (.zeroPageY e) s
  | .ldaAbs e | .ldxAbs e | .ldyAbs e | .adcAbs e | .sbcAbs e | .andAbs e | .oraAbs e | .eorAbs e | .cmpAbs e
  | .cpxAbs e | .cpyAbs e | .bitAbs e => readAccesses (.absolute e) s
  | .ldaAbsX e | .ldyAbsX e | .adcAbsX e | .sbcAbsX e | .andAbsX e | .oraAbsX e | .eorAbsX e | .cmpAbsX e => readAccesses (.absoluteX e) s
  | .ldaAbsY e | .ldxAbsY e | .adcAbsY e | .sbcAbsY e | .andAbsY e | .oraAbsY e | .eorAbsY e | .cmpAbsY e => readAccesses (.absoluteY e) s
  | .ldaIndX e | .adcIndX e | .sbcIndX e | .andIndX e | .oraIndX e | .eorIndX e | .cmpIndX e => readAccesses (.indirectX e) s
  | .ldaIndY e | .adcIndY e | .sbcIndY e | .andIndY e | .oraIndY e | .eorIndY e | .cmpIndY e => readAccesses (.indirectY e) s
  -- One data write.
  | .staZp e => storeAccesses (.zeroPage e) s.a s
  | .staZpX e => storeAccesses (.zeroPageX e) s.a s
  | .staAbs e => storeAccesses (.absolute e) s.a s
  | .staAbsX e => storeAccesses (.absoluteX e) s.a s
  | .staAbsY e => storeAccesses (.absoluteY e) s.a s
  | .staIndX e => storeAccesses (.indirectX e) s.a s
  | .staIndY e => storeAccesses (.indirectY e) s.a s
  | .stxZp e => storeAccesses (.zeroPage e) s.x s
  | .stxZpY e => storeAccesses (.zeroPageY e) s.x s
  | .stxAbs e => storeAccesses (.absolute e) s.x s
  | .styZp e => storeAccesses (.zeroPage e) s.y s
  | .styZpX e => storeAccesses (.zeroPageX e) s.y s
  | .styAbs e => storeAccesses (.absolute e) s.y s
  -- One data read, one data write.
  | .aslZp e => updateAccesses (fun v => (shiftAsl v s.p.c).r) (.zeroPage e) s
  | .aslZpX e => updateAccesses (fun v => (shiftAsl v s.p.c).r) (.zeroPageX e) s
  | .aslAbs e => updateAccesses (fun v => (shiftAsl v s.p.c).r) (.absolute e) s
  | .aslAbsX e => updateAccesses (fun v => (shiftAsl v s.p.c).r) (.absoluteX e) s
  | .lsrZp e => updateAccesses (fun v => (shiftLsr v s.p.c).r) (.zeroPage e) s
  | .lsrZpX e => updateAccesses (fun v => (shiftLsr v s.p.c).r) (.zeroPageX e) s
  | .lsrAbs e => updateAccesses (fun v => (shiftLsr v s.p.c).r) (.absolute e) s
  | .lsrAbsX e => updateAccesses (fun v => (shiftLsr v s.p.c).r) (.absoluteX e) s
  | .rolZp e => updateAccesses (fun v => (shiftRol v s.p.c).r) (.zeroPage e) s
  | .rolZpX e => updateAccesses (fun v => (shiftRol v s.p.c).r) (.zeroPageX e) s
  | .rolAbs e => updateAccesses (fun v => (shiftRol v s.p.c).r) (.absolute e) s
  | .rolAbsX e => updateAccesses (fun v => (shiftRol v s.p.c).r) (.absoluteX e) s
  | .rorZp e => updateAccesses (fun v => (shiftRor v s.p.c).r) (.zeroPage e) s
  | .rorZpX e => updateAccesses (fun v => (shiftRor v s.p.c).r) (.zeroPageX e) s
  | .rorAbs e => updateAccesses (fun v => (shiftRor v s.p.c).r) (.absolute e) s
  | .rorAbsX e => updateAccesses (fun v => (shiftRor v s.p.c).r) (.absoluteX e) s
  | .incZp e => updateAccesses (fun v => v + 1) (.zeroPage e) s
  | .incZpX e => updateAccesses (fun v => v + 1) (.zeroPageX e) s
  | .incAbs e => updateAccesses (fun v => v + 1) (.absolute e) s
  | .incAbsX e => updateAccesses (fun v => v + 1) (.absoluteX e) s
  | .decZp e => updateAccesses (fun v => v - 1) (.zeroPage e) s
  | .decZpX e => updateAccesses (fun v => v - 1) (.zeroPageX e) s
  | .decAbs e => updateAccesses (fun v => v - 1) (.absolute e) s
  | .decAbsX e => updateAccesses (fun v => v - 1) (.absoluteX e) s
  -- Pointer bytes, pushes, pulls, the BRK vector.
  | .jmpInd p => [.read p, .read (indirectHigh p)]
  | .jsr _ => pushWordAccesses (s.pc - 1) s.sp
  | .rts => [.read (stackAddr (s.sp + 1)), .read (stackAddr (s.sp + 1 + 1))]
  | .rti => [.read (stackAddr (s.sp + 1)), .read (stackAddr (s.sp + 1 + 1)), .read (stackAddr (s.sp + 1 + 1 + 1))]
  | .brk => pushWordAccesses (s.pc + 1) s.sp ++
      [.write (stackAddr (s.sp - 1 - 1)) s.p.pushByte, .read breakVector, .read (breakVector + 1)]
  | .pha => [.write (stackAddr s.sp) s.a]
  | .php => [.write (stackAddr s.sp) s.p.pushByte]
  | .pla | .plp => [.read (stackAddr (s.sp + 1))]

/-- The fetch of `n` bytes from `a` on (R126, R143). -/
def fetchAccesses : Nat → Addr → List Access
  | 0, _ => []
  | n + 1, a => .read a :: fetchAccesses n (a + 1)

/-- The accesses of a whole step that runs `i` from its opcode's address, in order (R126): the fetch, then the rest from
PC_next. -/
def stepAccesses (i : Instr) (s : State) : List Access :=
  fetchAccesses (instrLength i) s.pc ++ accesses i { s with pc := s.pc + BitVec.ofNat 16 (instrLength i) }

/-- The oracle checks a list of accesses; the first violation ends it (spec/20_memory.md R77). -/
def checkAccesses (policy : ReadPolicy) : List Access → Oracle → Except Fault Oracle
  | [], o => .ok o
  | .read a :: t, o =>
    match oracleRead policy a o with
    | .error f => .error f
    | .ok (_, o') => checkAccesses policy t o'
  | .write a v :: t, o =>
    match oracleWrite a v o with
    | .error f => .error f
    | .ok o' => checkAccesses policy t o'

end Sys2Proof.Machine
end

