-- ==== Sys2Proof/Machine/Forms.lean ====
section
/-!
DEFINITION. The forms of each multi-mode mnemonic with their operands (spec/30_encoding.md R104), for statements that hold
of every form.
-/

namespace Sys2Proof.Machine

/-- The forms of LDA (R161). -/
def ldaForms (b : Byte) (w : Addr) : List (Instr × Source) :=
  [(.ldaImm b, .immediate b), (.ldaZp b, .loc (.zeroPage b)), (.ldaZpX b, .loc (.zeroPageX b)),
   (.ldaAbs w, .loc (.absolute w)), (.ldaAbsX w, .loc (.absoluteX w)), (.ldaAbsY w, .loc (.absoluteY w)),
   (.ldaIndX b, .loc (.indirectX b)), (.ldaIndY b, .loc (.indirectY b))]

/-- The forms of LDX (R162). -/
def ldxForms (b : Byte) (w : Addr) : List (Instr × Source) :=
  [(.ldxImm b, .immediate b), (.ldxZp b, .loc (.zeroPage b)), (.ldxZpY b, .loc (.zeroPageY b)),
   (.ldxAbs w, .loc (.absolute w)), (.ldxAbsY w, .loc (.absoluteY w))]

/-- The forms of LDY (R163). -/
def ldyForms (b : Byte) (w : Addr) : List (Instr × Source) :=
  [(.ldyImm b, .immediate b), (.ldyZp b, .loc (.zeroPage b)), (.ldyZpX b, .loc (.zeroPageX b)),
   (.ldyAbs w, .loc (.absolute w)), (.ldyAbsX w, .loc (.absoluteX w))]

/-- The forms of STA (R164). -/
def staForms (b : Byte) (w : Addr) : List (Instr × LocMode) :=
  [(.staZp b, .zeroPage b), (.staZpX b, .zeroPageX b), (.staAbs w, .absolute w), (.staAbsX w, .absoluteX w),
   (.staAbsY w, .absoluteY w), (.staIndX b, .indirectX b), (.staIndY b, .indirectY b)]

/-- The forms of STX (R165). -/
def stxForms (b : Byte) (w : Addr) : List (Instr × LocMode) :=
  [(.stxZp b, .zeroPage b), (.stxZpY b, .zeroPageY b), (.stxAbs w, .absolute w)]

/-- The forms of STY (R166). -/
def styForms (b : Byte) (w : Addr) : List (Instr × LocMode) :=
  [(.styZp b, .zeroPage b), (.styZpX b, .zeroPageX b), (.styAbs w, .absolute w)]

/-- The forms of ADC (R182). -/
def adcForms (b : Byte) (w : Addr) : List (Instr × Source) :=
  [(.adcImm b, .immediate b), (.adcZp b, .loc (.zeroPage b)), (.adcZpX b, .loc (.zeroPageX b)),
   (.adcAbs w, .loc (.absolute w)), (.adcAbsX w, .loc (.absoluteX w)), (.adcAbsY w, .loc (.absoluteY w)),
   (.adcIndX b, .loc (.indirectX b)), (.adcIndY b, .loc (.indirectY b))]

/-- The forms of SBC (R183). -/
def sbcForms (b : Byte) (w : Addr) : List (Instr × Source) :=
  [(.sbcImm b, .immediate b), (.sbcZp b, .loc (.zeroPage b)), (.sbcZpX b, .loc (.zeroPageX b)),
   (.sbcAbs w, .loc (.absolute w)), (.sbcAbsX w, .loc (.absoluteX w)), (.sbcAbsY w, .loc (.absoluteY w)),
   (.sbcIndX b, .loc (.indirectX b)), (.sbcIndY b, .loc (.indirectY b))]

/-- The forms of AND (R184). -/
def andForms (b : Byte) (w : Addr) : List (Instr × Source) :=
  [(.andImm b, .immediate b), (.andZp b, .loc (.zeroPage b)), (.andZpX b, .loc (.zeroPageX b)),
   (.andAbs w, .loc (.absolute w)), (.andAbsX w, .loc (.absoluteX w)), (.andAbsY w, .loc (.absoluteY w)),
   (.andIndX b, .loc (.indirectX b)), (.andIndY b, .loc (.indirectY b))]

/-- The forms of ORA (R185). -/
def oraForms (b : Byte) (w : Addr) : List (Instr × Source) :=
  [(.oraImm b, .immediate b), (.oraZp b, .loc (.zeroPage b)), (.oraZpX b, .loc (.zeroPageX b)),
   (.oraAbs w, .loc (.absolute w)), (.oraAbsX w, .loc (.absoluteX w)), (.oraAbsY w, .loc (.absoluteY w)),
   (.oraIndX b, .loc (.indirectX b)), (.oraIndY b, .loc (.indirectY b))]

/-- The forms of EOR (R186). -/
def eorForms (b : Byte) (w : Addr) : List (Instr × Source) :=
  [(.eorImm b, .immediate b), (.eorZp b, .loc (.zeroPage b)), (.eorZpX b, .loc (.zeroPageX b)),
   (.eorAbs w, .loc (.absolute w)), (.eorAbsX w, .loc (.absoluteX w)), (.eorAbsY w, .loc (.absoluteY w)),
   (.eorIndX b, .loc (.indirectX b)), (.eorIndY b, .loc (.indirectY b))]

/-- The forms of CMP (R187). -/
def cmpForms (b : Byte) (w : Addr) : List (Instr × Source) :=
  [(.cmpImm b, .immediate b), (.cmpZp b, .loc (.zeroPage b)), (.cmpZpX b, .loc (.zeroPageX b)),
   (.cmpAbs w, .loc (.absolute w)), (.cmpAbsX w, .loc (.absoluteX w)), (.cmpAbsY w, .loc (.absoluteY w)),
   (.cmpIndX b, .loc (.indirectX b)), (.cmpIndY b, .loc (.indirectY b))]

/-- The forms of CPX (R188). -/
def cpxForms (b : Byte) (w : Addr) : List (Instr × Source) :=
  [(.cpxImm b, .immediate b), (.cpxZp b, .loc (.zeroPage b)), (.cpxAbs w, .loc (.absolute w))]

/-- The forms of CPY (R189). -/
def cpyForms (b : Byte) (w : Addr) : List (Instr × Source) :=
  [(.cpyImm b, .immediate b), (.cpyZp b, .loc (.zeroPage b)), (.cpyAbs w, .loc (.absolute w))]

/-- The forms of BIT (R190). -/
def bitForms (b : Byte) (w : Addr) : List (Instr × Source) :=
  [(.bitZp b, .loc (.zeroPage b)), (.bitAbs w, .loc (.absolute w))]

/-- The memory forms of ASL (R201). -/
def aslForms (b : Byte) (w : Addr) : List (Instr × LocMode) :=
  [(.aslZp b, .zeroPage b), (.aslZpX b, .zeroPageX b), (.aslAbs w, .absolute w), (.aslAbsX w, .absoluteX w)]

/-- The memory forms of LSR (R202). -/
def lsrForms (b : Byte) (w : Addr) : List (Instr × LocMode) :=
  [(.lsrZp b, .zeroPage b), (.lsrZpX b, .zeroPageX b), (.lsrAbs w, .absolute w), (.lsrAbsX w, .absoluteX w)]

/-- The memory forms of ROL (R203). -/
def rolForms (b : Byte) (w : Addr) : List (Instr × LocMode) :=
  [(.rolZp b, .zeroPage b), (.rolZpX b, .zeroPageX b), (.rolAbs w, .absolute w), (.rolAbsX w, .absoluteX w)]

/-- The memory forms of ROR (R204). -/
def rorForms (b : Byte) (w : Addr) : List (Instr × LocMode) :=
  [(.rorZp b, .zeroPage b), (.rorZpX b, .zeroPageX b), (.rorAbs w, .absolute w), (.rorAbsX w, .absoluteX w)]

/-- The forms of INC (R205). -/
def incForms (b : Byte) (w : Addr) : List (Instr × LocMode) :=
  [(.incZp b, .zeroPage b), (.incZpX b, .zeroPageX b), (.incAbs w, .absolute w), (.incAbsX w, .absoluteX w)]

/-- The forms of DEC (R206). -/
def decForms (b : Byte) (w : Addr) : List (Instr × LocMode) :=
  [(.decZp b, .zeroPage b), (.decZpX b, .zeroPageX b), (.decAbs w, .absolute w), (.decAbsX w, .absoluteX w)]

end Sys2Proof.Machine
end

