-- ==== Sys2Proof/Machine/Ports.lean ====
section
/-!
DEFINITION. The core's ports as the host sees them (spec/10_state.md R38): the step port with the state it leaves, faults
included (spec/60_exceptions.md R301, R302, R305), the status codes (R300), and the launch of an oracle test
(spec/70_reset_and_hazards.md R332).
-/

namespace Sys2Proof.Machine

/-- The code of a fault kind on the `status` port (R300). -/
def Fault.code : Fault → Nat
  | .unimplementedOpcode _ _ => 1
  | .readUndeclared _ => 2
  | .writeUndeclared _ _ => 3
  | .writeMismatch _ _ _ => 4
  | .writeMissing _ _ => 5

/-- The code on the `status` port: 0 is `Ok` (R300). -/
def statusCode : RunState → Nat
  | .running => 0
  | .faulted f => f.code

/-- Discarding the oracle's state after the instruction (spec/20_memory.md R70). -/
def discardOracle (s : State) : State :=
  match s.params.backend with
  | .flat => s
  | .oracle => { s with oracle := Oracle.empty }

/-- The registers after a verification violation: free values (R305; notes/assumptions/8.md). -/
def drawRegisters (s : State) : State :=
  { s with
    a := Config.freeByte s.draws 0
    x := Config.freeByte s.draws 1
    y := Config.freeByte s.draws 2
    sp := Config.freeByte s.draws 3
    p := Status.ofByte (Config.freeByte s.draws 4)
    pc := Config.freeAddr s.draws
    draws := s.draws + 1 }

/-- The registers that a step from `s` leaves when it raises `f`: as after the opcode fetch for an unimplemented opcode
(R302), free after a verification violation (R305). -/
def registersAfterFault (f : Fault) (s : State) : State :=
  match f with
  | .unimplementedOpcode _ _ => { s with pc := s.pc + 1 }
  | .readUndeclared _ => drawRegisters s
  | .writeUndeclared _ _ => drawRegisters s
  | .writeMismatch _ _ _ => drawRegisters s
  | .writeMissing _ _ => drawRegisters s

/-- The state a step from `s` leaves when it raises `f`: RunState is `Faulted(f)` (R301), the oracle's state is discarded. -/
def afterFault (f : Fault) (s : State) : State :=
  { discardOracle (registersAfterFault f s) with run := .faulted f }

/-- The step port (R38): the state after one step request. A faulted core takes no step and stays as it is (R301). -/
def stepPort (s : State) : State :=
  match step s with
  | .next t => t
  | .fault f => afterFault f s
  | .refused _ => s

/-- Registering expected reads, in order (spec/20_memory.md R71). -/
def registerReads : List (Addr × Byte) → Oracle → Oracle
  | [], o => o
  | (a, v) :: t, o => registerReads t (setReadTarget a v o)

/-- Registering required writes, in order (spec/20_memory.md R73). -/
def registerWrites : List (Addr × Byte) → Oracle → Oracle
  | [], o => o
  | (a, v) :: t, o => registerWrites t (setWriteTarget a v o)

/-- The launch state of one oracle test: the registers of `s`, the oracle installed with these expectations only
(spec/70_reset_and_hazards.md R332). RunState is Running at launch (spec/10_state.md R36, spec/60_exceptions.md R301). -/
def verificationLaunch (s : State) (reads writes : List (Addr × Byte)) : State :=
  { s with
    run := .running
    params := { s.params with backend := .oracle }
    oracle := registerWrites writes (registerReads reads Oracle.empty) }

end Sys2Proof.Machine
end

