-- ==== Sys2Proof/Safety.lean ====
section
/-!
DEFINITION. What a safe run is, in the terms claims about programs use: the end of a run of spec/70_reset_and_hazards.md
R335, and an invariant of the states between steps.
-/

namespace Sys2Proof.Machine

/-- How a run of at most so many steps stands (R335). -/
inductive RunEnd where
  /-- A step is about to start with `PC = END_PC` and `RunState = Running`. -/
  | well (s : State)
  /-- The first fault. -/
  | badly (f : Fault)
  /-- A step was not taken. -/
  | notTaken (r : Refusal)
  /-- The run has not ended in so many steps. -/
  | goesOn (s : State)
  deriving DecidableEq, Repr

/-- A run toward `END_PC` of at most `fuel` steps (R334, R335). The step at `END_PC` is not executed. -/
def runTo (endPC : Addr) : Nat → State → RunEnd
  | fuel, s =>
    if s.pc = endPC ∧ s.run = .running then .well s
    else
      match fuel with
      | 0 => .goesOn s
      | k + 1 =>
        match step s with
        | .next t => runTo endPC k t
        | .fault f => .badly f
        | .refused r => .notTaken r

/-- A run from `s` ends well at `END_PC`. -/
def EndsWell (endPC : Addr) (s t : State) : Prop := ∃ fuel, runTo endPC fuel s = .well t

/-- The oracle's tables are in canonical form. -/
def Oracle.wf (o : Oracle) : Bool := tableWf o.expRead && tableWf o.expWrite && tableWf o.performed

/-- What holds of every state between steps of a run: the flat memory and the oracle's tables are in canonical form, and
no write of an earlier instruction counts as performed (spec/20_memory.md R61, R70). -/
structure State.Inv (s : State) : Prop where
  mem : s.mem.wf = true
  oracle : s.oracle.wf = true
  performed : s.oracle.performed = []

end Sys2Proof.Machine
end

