-- ==== Sys2Proof/WellFormed.lean ====
section
/-!
DEFINITION. When an instruction as syntax is one the spec has (spec/30_encoding.md R106). Every operand field of R101
admits all its values, so the one check is on the byte of `unimplemented`.
-/

namespace Sys2Proof

/-- An instruction is well-formed unless it calls a documented opcode byte unimplemented (R103, R106). -/
def Instr.wf : Instr → Bool
  | .unimplemented op => !documentedOpcodes.contains op
  | _ => true

end Sys2Proof
end

