-- ==== Sys2Proof/Certificates/Slice0/Obligations.lean ====
section
/-!
DEFINITION. The statements for the provers, in the order of spec/. A clause that rests on a choice of the model, or on a
decision or an inference that spec/ marks as its own, is named so in the docstring.

A statement about operands read holds under either backend: `t` is the state after the operand is read, which differs from
`s` in the oracle's read expectations alone (`ReadingChangesNothingElse`), and is `s` itself under the flat backend.
-/

open Sys2Proof Sys2Proof.Machine

/-! ## Encoding -/

/-- Eight words written out from R103 and R101 decode to the instructions they stand for (30_encoding.md section 2), and a
ninth, a JMP that lacks a byte, is rejected by the decoder's own name (notes/assumptions/17.md). -/
def Obligations.SampleWordsDecode : Prop :=
  decode [0xA9, 0x05] = .ok (.ldaImm 0x05, []) ∧ decode [0x85, 0x10] = .ok (.staZp 0x10, []) ∧
  decode [0x6C, 0xFF, 0x02] = .ok (.jmpInd 0x02FF, []) ∧ decode [0xD0, 0xF8] = .ok (.bne 0xF8, []) ∧
  decode [0xFE, 0xFF, 0xFF] = .ok (.incAbsX 0xFFFF, []) ∧ decode [0x6A] = .ok (.rorA, []) ∧
  decode [0x00] = .ok (.brk, []) ∧ decode [0x02] = .ok (.unimplemented 0x02, []) ∧
  decode [0x4C, 0x34] = .error (.truncated 0x4C)

/-- Decoding the bytes of a well-formed instruction gives it back, with every operand, and leaves the bytes after it
(30_encoding.md sections 1 and 2). -/
def Obligations.DecodingInvertsEncoding : Prop :=
  ∀ (i : Instr) (rest : List Byte), i.wf = true → decode (encode i ++ rest) = .ok (i, rest)

/-- What decodes to an instruction is that instruction's encoding, and the instruction is well-formed: each word has one
meaning, and no bit of a word is dropped (30_encoding.md sections 1 and 2). -/
def Obligations.EncodingInvertsDecoding : Prop :=
  ∀ (bytes rest : List Byte) (i : Instr), decode bytes = .ok (i, rest) → bytes = encode i ++ rest ∧ i.wf = true

/-- R106's 105 bytes. -/
def unimplementedBytes : List Byte :=
  [0x02, 0x03, 0x04, 0x07, 0x0B, 0x0C, 0x0F, 0x12, 0x13, 0x14, 0x17, 0x1A, 0x1B, 0x1C, 0x1F, 0x22, 0x23, 0x27, 0x2B, 0x2F,
   0x32, 0x33, 0x34, 0x37, 0x3A, 0x3B, 0x3C, 0x3F, 0x42, 0x43, 0x44, 0x47, 0x4B, 0x4F, 0x52, 0x53, 0x54, 0x57, 0x5A, 0x5B,
   0x5C, 0x5F, 0x62, 0x63, 0x64, 0x67, 0x6B, 0x6F, 0x72, 0x73, 0x74, 0x77, 0x7A, 0x7B, 0x7C, 0x7F, 0x80, 0x82, 0x83, 0x87] ++
  [0x89, 0x8B, 0x8F, 0x92, 0x93, 0x97, 0x9B, 0x9C, 0x9E, 0x9F, 0xA3, 0xA7, 0xAB, 0xAF, 0xB2, 0xB3, 0xB7, 0xBB, 0xBF, 0xC2,
   0xC3, 0xC7, 0xCB, 0xCF, 0xD2, 0xD3, 0xD4, 0xD7, 0xDA, 0xDB, 0xDC, 0xDF, 0xE2, 0xE3, 0xE7, 0xEB, 0xEF, 0xF2, 0xF3, 0xF4,
   0xF7, 0xFA, 0xFB, 0xFC, 0xFF]

/-- The documented opcodes and the 105 bytes of R106 are the 256 bytes, with no byte in both, and the 105 are exactly those
that decode to no documented instruction (30_encoding.md section 3). -/
def Obligations.UnimplementedBytesAreTheRest : Prop :=
  unimplementedBytes.length = 105 ∧ documentedOpcodes.length = 151 ∧
  ∀ op : Byte, (op ∈ unimplementedBytes ↔ op ∉ documentedOpcodes) ∧
    (op ∈ unimplementedBytes ↔ decodeOpcode op = .op0 (.unimplemented op))

/-- The opcode map is a map (no byte has two records), and in every record the mode's length is the opcode and the operand
bytes that the decoder takes, for modes other than the two one-byte ones too (R101; 30_encoding.md section 1). -/
def Obligations.OpcodeMapIsConsistent : Prop :=
  opcodeTable.Pairwise (fun r q => r.opcode ≠ q.opcode) ∧
  ∀ r ∈ opcodeTable, r.mode.length = r.form.operandBytes + 1

/-! ## The step -/

/-- A running core fetches one instruction, executes it from the state the fetch leaves, and ends the instruction
(40_execution.md section 1). -/
def Obligations.StepRunsTheFetchedInstruction : Prop :=
  ∀ (s t : State) (i : Instr), s.run = .running → fetchInstr s = .ok (i, t) → step s = endStep (exec i t)

/-- Under the flat backend, when the bytes at PC are those of a well-formed instruction whose opcode is in
`IMPLEMENTED_OPCODES` (or of the unimplemented instruction), a step is `exec` of it at the state with PC past its bytes,
modulo 65536 (40_execution.md section 1; 10_state.md section 1). That a byte which the parameter names but no rule
documents steps as the unimplemented instruction is the model's reading (notes/assumptions/11.md). -/
def Obligations.FlatStepRunsTheInstructionAtPC : Prop :=
  ∀ (s : State) (i : Instr), s.run = .running → s.params.backend = .flat → i.wf = true →
    (instrOpcode i ∈ s.params.implemented ∨ i = .unimplemented (instrOpcode i)) →
    (∀ k v, (encode i)[k]? = some v → s.mem.byteAt (s.pc + BitVec.ofNat 16 k) = v) →
    step s = exec i { s with pc := s.pc + BitVec.ofNat 16 (instrLength i) }

/-- Under the flat backend a step is total: an opcode that is implemented and documented completes, whatever the rest of
the state; any other byte raises UnimplementedOpcode with the byte and its address; nothing else stops a running core. That
a byte which `IMPLEMENTED_OPCODES` names but no rule documents is among the latter is the model's reading
(notes/assumptions/11.md). -/
def Obligations.FlatStepIsTotal : Prop :=
  ∀ s : State, s.run = .running → s.params.backend = .flat →
    (s.mem.byteAt s.pc ∈ s.params.implemented → s.mem.byteAt s.pc ∈ documentedOpcodes → ∃ t, step s = .next t) ∧
    (s.mem.byteAt s.pc ∉ s.params.implemented ∨ s.mem.byteAt s.pc ∉ documentedOpcodes →
      step s = .fault (.unimplementedOpcode (s.mem.byteAt s.pc) s.pc))

/-- A fault is final (R301): the step that raises it sets RunState to Faulted with its record; a faulted core takes no step and
stays as it is; a new launch, that of an oracle test too, is running. -/
def Obligations.FaultIsFinal : Prop :=
  (∀ (s : State) (f : Fault), s.run = .running → step s = .fault f → (stepPort s).run = .faulted f) ∧
  (∀ (s : State) (f : Fault), s.run = .faulted f → step s = .refused (.runFaulted f) ∧ stepPort s = s) ∧
  (∀ (q : Params) (m : Memory), (State.fresh q m).run = .running) ∧
  ∀ (s : State) (reads writes : List (Addr × Byte)), (verificationLaunch s reads writes).run = .running

/-- UnimplementedOpcode (30_encoding.md section 3, 60_exceptions.md sections 1 and 2; its precise state is decision D18, spec/'s
own). The instruction `unimplemented` raises it in every state, with its byte and the address PC has just passed. A byte
outside `IMPLEMENTED_OPCODES` at PC raises it precisely: at the step port RunState records the byte and its address, PC is
past the byte, and A, X, Y, SP, P and memory are as before. Under the oracle too, where the one read declared is the
opcode's, and there the oracle is left discarded (the step's discard is notes/assumptions/9.md); with no live expectation at
PC the opcode fetch is the violation, whatever the byte. -/
def Obligations.UnimplementedOpcodeIsPrecise : Prop :=
  (∀ (op : Byte) (s : State), exec (.unimplemented op) s = .fault (.unimplementedOpcode op (s.pc - 1))) ∧
  (∀ s : State, s.run = .running → s.params.backend = .flat → s.mem.byteAt s.pc ∉ s.params.implemented →
    step s = .fault (.unimplementedOpcode (s.mem.byteAt s.pc) s.pc) ∧
    stepPort s = { s with pc := s.pc + 1, run := .faulted (.unimplementedOpcode (s.mem.byteAt s.pc) s.pc) }) ∧
  ∀ s : State, s.run = .running → s.params.backend = .oracle →
    (∀ op, tableGet s.pc.toNat s.oracle.expRead = some (op, true) → op ∉ s.params.implemented →
      step s = .fault (.unimplementedOpcode op s.pc) ∧
      stepPort s =
        { s with pc := s.pc + 1, run := .faulted (.unimplementedOpcode op s.pc), oracle := Oracle.empty }) ∧
    ((∀ op, tableGet s.pc.toNat s.oracle.expRead ≠ some (op, true)) → step s = .fault (.readUndeclared s.pc))

/-- What a fault leaves (20_memory.md section 7, 60_exceptions.md section 1): memory and the parameters are unchanged, and
the oracle is discarded. That memory is unchanged under the flat backend too, and that the step itself discards the
oracle, are the model's readings (notes/assumptions/7.md, 9.md). Nothing is said of the registers. -/
def Obligations.FaultLeavesMemoryAlone : Prop :=
  ∀ (s : State) (f : Fault), s.run = .running → step s = .fault f →
    (stepPort s).mem = s.mem ∧ (stepPort s).params = s.params ∧
    (s.params.backend = .oracle → (stepPort s).oracle = Oracle.empty) ∧
    (s.params.backend = .flat → ∃ op a, f = .unimplementedOpcode op a ∧ (stepPort s).oracle = s.oracle)

/-! ## Reset and the invariant -/

/-- The fresh state under any parameters and image (70_reset_and_hazards.md section 1; decisions D6, D7, spec/'s own): P is `(RESET_REGS.P | 0x20) & ~0x10`, PC is `ENTRY_PC` or the
little-endian word at 0xFFFC, RunState is Running, memory is the image. -/
def Obligations.FreshStateFollowsReset : Prop :=
  ∀ (q : Params) (m : Memory),
    (State.fresh q m).a = q.resetRegs.a ∧ (State.fresh q m).x = q.resetRegs.x ∧ (State.fresh q m).y = q.resetRegs.y ∧
    (State.fresh q m).sp = q.resetRegs.sp ∧
    (State.fresh q m).p.toByte = (q.resetRegs.p ||| 0x20) &&& ~~~0x10 ∧
    (State.fresh q m).run = .running ∧ (State.fresh q m).mem = m ∧
    (∀ e, q.entryMode = .entryPC e → (State.fresh q m).pc = e) ∧
    (q.entryMode = .resetVector → (State.fresh q m).pc = joinBytes (m.byteAt 0xFFFD) (m.byteAt 0xFFFC))

/-- The default fresh state (10_state.md section 4; decisions D6, D25, spec/'s own). PC is the model's choice
(notes/assumptions/2.md) and is not stated. -/
def Obligations.ResetHasTheDefaultValues : Prop :=
  State.reset.a = 0x00 ∧ State.reset.x = 0x00 ∧ State.reset.y = 0x00 ∧ State.reset.sp = 0xFD ∧
  State.reset.p.toByte = 0x24 ∧ State.reset.run = .running ∧ State.reset.mem = [] ∧
  State.reset.oracle = Oracle.empty ∧ State.reset.params.backend = .flat

/-- Reset satisfies the invariant. -/
def Obligations.ResetSatisfiesTheInvariant : Prop := State.reset.Inv

/-- Every step keeps the invariant: memory and the oracle's tables stay in canonical form, and no write of an earlier
instruction counts as performed. So does every step request, those that fault or are refused too. -/
def Obligations.StepKeepsTheInvariant : Prop :=
  (∀ s t : State, s.Inv → step s = .next t → t.Inv) ∧ ∀ s : State, s.Inv → (stepPort s).Inv

/-- No step changes a parameter, a completed step leaves the core running, the flat backend leaves the oracle alone, and a
step under the oracle writes no memory (R80) and leaves the oracle discarded (20_memory.md section 7). That no step changes
a parameter is the model's choice (notes/assumptions/1.md), and that the step discards the oracle is its reading
(notes/assumptions/9.md). -/
def Obligations.StepLeavesTheRestAlone : Prop :=
  ∀ s t : State, step s = .next t →
    t.params = s.params ∧ t.run = .running ∧ (s.params.backend = .flat → t.oracle = s.oracle) ∧
    (s.params.backend = .oracle → t.mem = s.mem ∧ t.oracle = Oracle.empty)

/-! ## Memory -/

/-- Round trip (R63): under the flat backend a byte or word written at any address reads back, a word at 0xFFFF too, its low
byte is at the address and its high byte at the next modulo 65536, in writing and in reading (20_memory.md sections 1 and
5), and every other byte is as before; under the oracle, which stores no write, a write then a read can answer another value. -/
def Obligations.FlatMemoryRoundTrips : Prop :=
  (∀ (s : State) (a : Addr) (v : Byte), s.params.backend = .flat →
    ∃ t, writeByte a v s = .ok t ∧ readByte a t = .ok (v, t) ∧
      ∀ b, b ≠ a → t.mem.byteAt b = s.mem.byteAt b) ∧
  (∀ (s : State) (a v : Addr), s.params.backend = .flat →
    ∃ t, writeWord a v s = .ok t ∧ readWord a t = .ok (v, t) ∧
      (t.mem.byteAt a).toNat = v.toNat % 256 ∧ (t.mem.byteAt (a + 1)).toNat = v.toNat / 256 ∧
      ∀ b, b ≠ a → b ≠ a + 1 → t.mem.byteAt b = s.mem.byteAt b) ∧
  (∀ (s : State) (a : Addr), s.params.backend = .flat →
    readWord a s = .ok (BitVec.ofNat 16 ((s.mem.byteAt (a + 1)).toNat * 256 + (s.mem.byteAt a).toNat), s)) ∧
  ∃ (s t u : State) (a : Addr) (v w : Byte), s.params.backend = .oracle ∧ writeByte a v s = .ok t ∧
    readByte a t = .ok (w, u) ∧ w ≠ v

/-- The memory unit (20_memory.md section 2; the rows are the spec's inference from the bits' meanings): without MemEnable nothing changes; a store sets the addressed byte to the data line and no other;
a load drives the addressed byte on the data line and changes no memory. -/
def Obligations.MemoryUnitHonoursTheControlLines : Prop :=
  ∀ (l : BusLines) (m : Memory),
    (l.ctrl = 0b00 ∨ l.ctrl = 0b01 → memoryUnit l m = (l, m)) ∧
    (l.ctrl = 0b10 → (memoryUnit l m).1 = l ∧ (memoryUnit l m).2.byteAt l.addr = l.data ∧
      ∀ b, b ≠ l.addr → (memoryUnit l m).2.byteAt b = m.byteAt b) ∧
    (l.ctrl = 0b11 → memoryUnit l m = ({ l with data := m.byteAt l.addr }, m))

/-! ## The oracle -/

/-- The oracle's read (20_memory.md section 7; that Persistent answers every read is decision D11, spec/'s own): an address with no live expectation is a violation; a live one answers its value, and is spent
under ConsumeOnce alone, after which a second read of it is a violation. -/
def Obligations.OracleReadFollowsItsExpectation : Prop :=
  ∀ (s : State) (a : Addr), s.params.backend = .oracle →
    ((∀ v, tableGet a.toNat s.oracle.expRead ≠ some (v, true)) → readByte a s = .error (.readUndeclared a)) ∧
    ∀ v, tableGet a.toNat s.oracle.expRead = some (v, true) →
      (s.params.readPolicy = .persistent → readByte a s = .ok (v, s)) ∧
      (s.params.readPolicy = .consumeOnce →
        ∃ t, readByte a s = .ok (v, t) ∧ readByte a t = .error (.readUndeclared a) ∧
          tableGet a.toNat t.oracle.expRead = some (v, false) ∧
          (∀ k, k ≠ a.toNat → tableGet k t.oracle.expRead = tableGet k s.oracle.expRead) ∧
          t = { s with oracle := { s.oracle with expRead := t.oracle.expRead } })

/-- The oracle's write (R75): an address with no expectation, or another value, is a violation that names the address, the
expected value and the actual one; the expected value only adds the address to Performed. -/
def Obligations.OracleWriteFollowsItsExpectation : Prop :=
  ∀ (s : State) (a : Addr) (v : Byte), s.params.backend = .oracle →
    (tableGet a.toNat s.oracle.expWrite = none → writeByte a v s = .error (.writeUndeclared a v)) ∧
    (∀ e, tableGet a.toNat s.oracle.expWrite = some e → e ≠ v → writeByte a v s = .error (.writeMismatch a e v)) ∧
    (tableGet a.toNat s.oracle.expWrite = some v →
      ∃ t, writeByte a v s = .ok t ∧ t = { s with oracle := { s.oracle with performed := t.oracle.performed } } ∧
        (∀ k, tableGet k t.oracle.performed = if k = a.toNat then some () else tableGet k s.oracle.performed))

/-- Registering (20_memory.md section 7; decisions D12 and D27, spec/'s own): a registration is a live expectation of its
value, replaces an earlier one at its address and leaves every other; a word is its two bytes, low byte at the
address, high byte at the next modulo 65536. -/
def Obligations.RegistrationSetsOneExpectation : Prop :=
  ∀ (o : Oracle) (a : Addr) (v : Byte) (w : Addr) (k : Nat),
    tableGet k (setReadTarget a v o).expRead = (if k = a.toNat then some (v, true) else tableGet k o.expRead) ∧
    tableGet k (setWriteTarget a v o).expWrite = (if k = a.toNat then some v else tableGet k o.expWrite) ∧
    tableGet k (setReadWordTarget a w o).expRead =
      (if k = (a + 1).toNat then some (hiByte w, true) else if k = a.toNat then some (loByte w, true)
        else tableGet k o.expRead) ∧
    (setReadTarget a v o).expWrite = o.expWrite ∧ (setWriteTarget a v o).expRead = o.expRead

/-- The accesses of an instruction, in the order of R126, decide the oracle's verdict: under the oracle, where every live
expectation agrees with the memory, the instruction faults with the first violation of its access list, or completes with
the registers that the flat backend gives and the oracle that the list leaves (40_execution.md sections 1 and 2,
20_memory.md section 7; the order is decision D16, spec/'s own). -/
def Obligations.AccessListDecidesTheVerdict : Prop :=
  ∀ (i : Instr) (s : State), s.params.backend = .oracle → (∀ op, i ≠ .unimplemented op) →
    (∀ (a : Addr) v, tableGet a.toNat s.oracle.expRead = some (v, true) → v = s.mem.byteAt a) →
    match checkAccesses s.params.readPolicy (accesses i s) s.oracle with
    | .error f => exec i s = .fault f
    | .ok o => ∃ u, exec i { s with params := { s.params with backend := .flat } } = .next u ∧
        exec i s = .next { u with params := s.params, mem := s.mem, oracle := o }

/-- The same of a whole step: the fetch reads and then the instruction's accesses, in the order of R126, decide the step under
the oracle, where every live expectation agrees with the memory. The first violation is the step's fault; with none, a
registered write not performed is (under `ORACLE_REQUIRE_WRITES`), else the step completes with the registers that the flat
backend gives, writes no memory, and leaves the oracle discarded (40_execution.md sections 1 and 2, 20_memory.md section 7;
the order is decision D16, spec/'s own; the discard is notes/assumptions/9.md). -/
def Obligations.StepAccessListDecidesTheStep : Prop :=
  ∀ (s t : State) (i : Instr), s.run = .running → s.params.backend = .oracle → (∀ op, i ≠ .unimplemented op) →
    (∀ (a : Addr) v, tableGet a.toNat s.oracle.expRead = some (v, true) → v = s.mem.byteAt a) →
    fetchInstr { s with params := { s.params with backend := .flat } } = .ok (i, t) →
    match checkAccesses s.params.readPolicy (stepAccesses i s) s.oracle with
    | .error f => step s = .fault f
    | .ok o =>
      match missingWrite s.params.requireWrites o with
      | some (a, v) => step s = .fault (.writeMissing a v)
      | none => ∃ u, step { s with params := { s.params with backend := .flat } } = .next u ∧
          step s = .next { u with params := s.params, mem := s.mem, oracle := Oracle.empty }

/-- A step that completes under the oracle, where every live expectation agrees with the memory, completes under the flat
backend with the same registers, and there it changes only bytes registered as required writes, to their required values
(20_memory.md section 7). -/
def Obligations.OracleStepRefinesFlatStep : Prop :=
  ∀ s t : State, s.params.backend = .oracle →
    (∀ (a : Addr) v, tableGet a.toNat s.oracle.expRead = some (v, true) → v = s.mem.byteAt a) → step s = .next t →
    ∃ u, step { s with params := { s.params with backend := .flat } } = .next u ∧
      u.a = t.a ∧ u.x = t.x ∧ u.y = t.y ∧ u.sp = t.sp ∧ u.pc = t.pc ∧ u.p = t.p ∧
      ∀ a, u.mem.byteAt a ≠ s.mem.byteAt a → tableGet a.toNat s.oracle.expWrite = some (u.mem.byteAt a)

/-- The end-of-instruction check (20_memory.md section 7; decision D15, spec/'s own): with `ORACLE_REQUIRE_WRITES` the lowest
registered write not performed is the violation WriteMissing with its required value; with none missing, or without the
parameter, the step completes and leaves the oracle discarded (that the step discards it is the model's reading,
notes/assumptions/9.md). -/
def Obligations.UnperformedWriteIsReportedLowestFirst : Prop :=
  ∀ (s t u : State) (i : Instr), s.run = .running → s.params.backend = .oracle → fetchInstr s = .ok (i, t) →
    exec i t = .next u → s.Inv →
    (s.params.requireWrites = false → step s = .next { u with oracle := Oracle.empty }) ∧
    ((∀ k v, tableGet k u.oracle.expWrite = some v → tableGet k u.oracle.performed = some ()) →
      step s = .next { u with oracle := Oracle.empty }) ∧
    (s.params.requireWrites = true → ∀ (a : Addr) v, tableGet a.toNat u.oracle.expWrite = some v →
      tableGet a.toNat u.oracle.performed = none →
      (∀ k w, k < a.toNat → tableGet k u.oracle.expWrite = some w → tableGet k u.oracle.performed = some ()) →
      step s = .fault (.writeMissing a v))

/-- The check of a list of accesses depends on no expectation outside the addresses the list names: two oracles that agree
there give the same verdict, and the same first violation (20_memory.md section 7, the dependency protocol). -/
def Obligations.VerdictIgnoresOtherExpectations : Prop :=
  ∀ (policy : ReadPolicy) (l : List Access) (o o' : Oracle),
    (∀ a, .read a ∈ l → tableGet a.toNat o.expRead = tableGet a.toNat o'.expRead) →
    (∀ a v, .write a v ∈ l → tableGet a.toNat o.expWrite = tableGet a.toNat o'.expWrite) →
    ((∃ q, checkAccesses policy l o = .ok q) ↔ (∃ q, checkAccesses policy l o' = .ok q)) ∧
    ∀ f, checkAccesses policy l o = .error f ↔ checkAccesses policy l o' = .error f

/-! ## Addressing modes -/

/-- Reading an operand, resolving a mode or reading the JMP pointer changes no register, no memory and no write expectation
(40_execution.md section 2): only live read expectations can be spent, and under the flat backend nothing changes. -/
def Obligations.ReadingChangesNothingElse : Prop :=
  ∀ s t : State,
    (∃ m l, resolve m s = .ok (l, t)) ∨ (∃ src v, readSource src s = .ok (v, t)) ∨ (∃ p w, indirectTarget p s = .ok (w, t)) →
    t = { s with oracle := { s.oracle with expRead := t.oracle.expRead } } ∧
    (s.params.backend = .flat → t = s) ∧ (s.params.readPolicy = .persistent → t = s)

/-- The zero-page modes (R131 to R133): the address is the operand byte, or its sum with the index modulo 256, so it is always
in zero page. -/
def Obligations.ZeroPageModesWrapInZeroPage : Prop :=
  ∀ (s : State) (b : Byte),
    (∃ a, resolve (.zeroPage b) s = .ok (.mem a, s) ∧ a.toNat = b.toNat) ∧
    (∃ a, resolve (.zeroPageX b) s = .ok (.mem a, s) ∧ a.toNat = (b.toNat + s.x.toNat) % 256) ∧
    (∃ a, resolve (.zeroPageY b) s = .ok (.mem a, s) ∧ a.toNat = (b.toNat + s.y.toNat) % 256)

/-- The absolute modes (R134 to R136): the operand word, or its sum with the index modulo 65536. -/
def Obligations.AbsoluteModesAddInFull : Prop :=
  ∀ (s : State) (w : Addr),
    resolve (.absolute w) s = .ok (.mem w, s) ∧
    (∃ a, resolve (.absoluteX w) s = .ok (.mem a, s) ∧ a.toNat = (w.toNat + s.x.toNat) % 65536) ∧
    (∃ a, resolve (.absoluteY w) s = .ok (.mem a, s) ∧ a.toNat = (w.toNat + s.y.toNat) % 65536)

/-- IndirectX (40_execution.md section 2; the wrap is decision D9, spec/'s own): the pointer is at `(b + X) mod 256`; its high byte is in zero page under `IZX_PTR_WRAP`, else at the
next address; each pointer byte is one read, low byte first. -/
def Obligations.IndirectXReadsItsPointer : Prop :=
  ∀ (s t u : State) (b lo hi : Byte),
    let q := (b.toNat + s.x.toNat) % 256
    readByte (BitVec.ofNat 16 q) s = .ok (lo, t) →
    readByte (BitVec.ofNat 16 (if s.params.izxPtrWrap then (q + 1) % 256 else q + 1)) t = .ok (hi, u) →
    resolve (.indirectX b) s = .ok (.mem (BitVec.ofNat 16 (hi.toNat * 256 + lo.toNat)), u)

/-- IndirectY (40_execution.md section 2; the wrap is decision D10, spec/'s own): the pointer is at the operand byte; its high byte is in zero page under `IZY_PTR_WRAP`, else at the next
address; Y is added to the pointer's word in full, modulo 65536. -/
def Obligations.IndirectYAddsYToItsPointer : Prop :=
  ∀ (s t u : State) (b lo hi : Byte),
    readByte (BitVec.ofNat 16 b.toNat) s = .ok (lo, t) →
    readByte (BitVec.ofNat 16 (if s.params.izyPtrWrap then (b.toNat + 1) % 256 else b.toNat + 1)) t = .ok (hi, u) →
    resolve (.indirectY b) s = .ok (.mem (BitVec.ofNat 16 (hi.toNat * 256 + lo.toNat + s.y.toNat)), u)

/-- Under the flat backend every operand can be read and every mode resolved, with no change of state, and the byte read is
that at the effective address of R143's table. -/
def Obligations.FlatOperandsAreAlwaysReadable : Prop :=
  ∀ (s : State) (m : LocMode), s.params.backend = .flat →
    match flatEa m s with
    | some a => resolve m s = .ok (.mem a, s) ∧ readSource (.loc m) s = .ok (s.mem.byteAt a, s)
    | none => m = .accumulator ∧ resolve m s = .ok (.acc, s) ∧ readSource (.loc m) s = .ok (s.a, s)

/-! ## What the rules of the multi-mode instructions share -/

/-- The forms have these opcodes, in order. -/
def HasOpcodes {α : Type} (forms : Byte → Addr → List (Instr × α)) (ops : List Byte) : Prop :=
  ∀ b w, (forms b w).map (fun f => instrOpcode f.1) = ops

/-- A violation in reading the operand is the instruction's fault. -/
def FaultsWithItsRead (forms : Byte → Addr → List (Instr × Source)) : Prop :=
  ∀ (b : Byte) (w : Addr), ∀ f ∈ forms b w, ∀ (s : State) (e : Fault), readSource f.2 s = .error e → exec f.1 s = .fault e

/-- A violation in reading the mode's pointer is the instruction's fault. -/
def FaultsWithItsPointer (forms : Byte → Addr → List (Instr × LocMode)) : Prop :=
  ∀ (b : Byte) (w : Addr), ∀ f ∈ forms b w, ∀ (s : State) (e : Fault), resolve f.2 s = .error e → exec f.1 s = .fault e

/-! ## Loads and stores -/

/-- The load rule for one register's forms and their opcodes: the register is the operand byte, Z and N are from it, all else
is as it was. -/
def LoadRule (forms : Byte → Addr → List (Instr × Source)) (ops : List Byte) (set : State → Byte → State) : Prop :=
  HasOpcodes forms ops ∧ FaultsWithItsRead forms ∧
  ∀ (b : Byte) (w : Addr), ∀ f ∈ forms b w, ∀ (s t : State) (v : Byte), readSource f.2 s = .ok (v, t) →
    exec f.1 s = .next (set { s with
      oracle := t.oracle, p := { s.p with z := decide (v.toNat = 0), n := decide (128 ≤ v.toNat) } } v)

/-- LDA, LDX and LDY in every form (R161 to R163). -/
def Obligations.LoadsSetTheRegisterAndZN : Prop :=
  LoadRule ldaForms [0xA9, 0xA5, 0xB5, 0xAD, 0xBD, 0xB9, 0xA1, 0xB1] (fun s v => { s with a := v }) ∧
  LoadRule ldxForms [0xA2, 0xA6, 0xB6, 0xAE, 0xBE] (fun s v => { s with x := v }) ∧
  LoadRule ldyForms [0xA0, 0xA4, 0xB4, 0xAC, 0xBC] (fun s v => { s with y := v })

/-- The store rule for one register's forms, `a` the address the mode resolves to. Under the flat backend the byte at `a` is
the register, every other byte and all of the rest is as before; under the oracle the one write is checked. -/
def StoreRule (forms : Byte → Addr → List (Instr × LocMode)) (ops : List Byte) (reg : State → Byte) : Prop :=
  HasOpcodes forms ops ∧ FaultsWithItsPointer forms ∧
  ∀ (b : Byte) (w : Addr), ∀ f ∈ forms b w, ∀ (s t : State) (a : Addr), resolve f.2 s = .ok (.mem a, t) →
    (s.params.backend = .flat →
      ∃ u, exec f.1 s = .next u ∧ u = { s with mem := u.mem } ∧ u.mem.byteAt a = reg s ∧
        ∀ c, c ≠ a → u.mem.byteAt c = s.mem.byteAt c) ∧
    (s.params.backend = .oracle →
      (tableGet a.toNat s.oracle.expWrite = some (reg s) →
        ∃ u, exec f.1 s = .next u ∧ u = { s with oracle := u.oracle } ∧
          tableGet a.toNat u.oracle.performed = some ()) ∧
      (tableGet a.toNat s.oracle.expWrite = none → exec f.1 s = .fault (.writeUndeclared a (reg s))) ∧
      ∀ e, tableGet a.toNat s.oracle.expWrite = some e → e ≠ reg s → exec f.1 s = .fault (.writeMismatch a e (reg s)))

/-- STA, STX and STY in every form (R164 to R166), with no flag and no register changed. -/
def Obligations.StoresWriteOneByte : Prop :=
  StoreRule staForms [0x85, 0x95, 0x8D, 0x9D, 0x99, 0x81, 0x91] State.a ∧ StoreRule stxForms [0x86, 0x96, 0x8E] State.x ∧
  StoreRule styForms [0x84, 0x94, 0x8C] State.y

/-! ## ALU -/

/-- ADC in every form (R182): the exact sum of A, the operand and the carry, narrowed; C is the ninth bit; V is set
exactly when the signed sum is outside -128..127, which is the classic rule; all else is as it was. -/
def Obligations.AdcAddsWithCarry : Prop :=
  HasOpcodes adcForms [0x69, 0x65, 0x75, 0x6D, 0x7D, 0x79, 0x61, 0x71] ∧ FaultsWithItsRead adcForms ∧
  ∀ (b : Byte) (w : Addr), ∀ f ∈ adcForms b w, ∀ (s t : State) (m : Byte), readSource f.2 s = .ok (m, t) →
    ∃ u, exec f.1 s = .next u ∧ u = { s with oracle := t.oracle, a := u.a, p := u.p } ∧
      u.a.toNat = (s.a.toNat + m.toNat + s.p.c.toNat) % 256 ∧
      u.p.c = decide (255 < s.a.toNat + m.toNat + s.p.c.toNat) ∧
      u.p.v = (((s.a ^^^ u.a) &&& (m ^^^ u.a) &&& 0x80) != 0) ∧
      (u.p.v = true ↔ ¬(-128 ≤ s.a.toInt + m.toInt + s.p.c.toNat ∧ s.a.toInt + m.toInt + s.p.c.toNat ≤ 127)) ∧
      u.p.z = decide (u.a.toNat = 0) ∧ u.p.n = decide (128 ≤ u.a.toNat) ∧ u.p.d = s.p.d ∧ u.p.i = s.p.i

/-- SBC in every form (42_alu.md section 2; the identity `SBC m = ADC ~m` is the spec's general knowledge): `A - m - (1 - C)` modulo 256; C is "no borrow"; V is `(A ^ m) & (A ^ r) & 0x80`, set exactly
when the signed difference is outside -128..127; all else is as it was. -/
def Obligations.SbcSubtractsWithBorrow : Prop :=
  HasOpcodes sbcForms [0xE9, 0xE5, 0xF5, 0xED, 0xFD, 0xF9, 0xE1, 0xF1] ∧ FaultsWithItsRead sbcForms ∧
  ∀ (b : Byte) (w : Addr), ∀ f ∈ sbcForms b w, ∀ (s t : State) (m : Byte), readSource f.2 s = .ok (m, t) →
    ∃ u, exec f.1 s = .next u ∧ u = { s with oracle := t.oracle, a := u.a, p := u.p } ∧
      (u.a.toNat : Int) = ((s.a.toNat : Int) - m.toNat - (1 - s.p.c.toNat)) % 256 ∧
      u.p.c = decide (0 ≤ (s.a.toNat : Int) - m.toNat - (1 - s.p.c.toNat)) ∧
      u.p.v = (((s.a ^^^ m) &&& (s.a ^^^ u.a) &&& 0x80) != 0) ∧
      (u.p.v = true ↔
        ¬(-128 ≤ s.a.toInt - m.toInt - (1 - s.p.c.toNat) ∧ s.a.toInt - m.toInt - (1 - s.p.c.toNat) ≤ 127)) ∧
      u.p.z = decide (u.a.toNat = 0) ∧ u.p.n = decide (128 ≤ u.a.toNat) ∧ u.p.d = s.p.d ∧ u.p.i = s.p.i

/-- The same state with another value of the D flag. -/
def withD (d : Bool) (s : State) : State := { s with p := { s.p with d := d } }

/-- D does not change ADC or SBC (42_alu.md section 1; decision D5, spec/'s own): with another D, each form answers the same state but for D, or the same fault. -/
def Obligations.DecimalFlagDoesNotChangeAddition : Prop :=
  ∀ (b : Byte) (w : Addr), ∀ f ∈ adcForms b w ++ sbcForms b w, ∀ (s : State) (d : Bool),
    (∀ t, exec f.1 s = .next t → exec f.1 (withD d s) = .next (withD d t)) ∧
    (∀ e, exec f.1 s = .fault e → exec f.1 (withD d s) = .fault e)

/-- The logic rule for one mnemonic's forms: A is `g A m`, Z and N are from it, all else is as it was. -/
def LogicRule (forms : Byte → Addr → List (Instr × Source)) (ops : List Byte) (g : Bool → Bool → Bool) : Prop :=
  HasOpcodes forms ops ∧ FaultsWithItsRead forms ∧
  ∀ (b : Byte) (w : Addr), ∀ f ∈ forms b w, ∀ (s t : State) (m : Byte), readSource f.2 s = .ok (m, t) →
    ∃ u, exec f.1 s = .next u ∧
      u = { s with oracle := t.oracle, a := u.a, p := { s.p with z := decide (u.a = 0), n := u.a.getLsbD 7 } } ∧
      ∀ k, k < 8 → u.a.getLsbD k = g (s.a.getLsbD k) (m.getLsbD k)

/-- AND, ORA and EOR in every form, bit by bit (R184 to R186). -/
def Obligations.LogicIsBitwise : Prop :=
  LogicRule andForms [0x29, 0x25, 0x35, 0x2D, 0x3D, 0x39, 0x21, 0x31] (· && ·) ∧
  LogicRule oraForms [0x09, 0x05, 0x15, 0x0D, 0x1D, 0x19, 0x01, 0x11] (· || ·) ∧
  LogicRule eorForms [0x49, 0x45, 0x55, 0x4D, 0x5D, 0x59, 0x41, 0x51] (· ^^ ·)

/-- The compare rule for one register's forms: C is `reg ≥ m`, Z is `reg = m`, N is bit 7 of the difference modulo 256; the
register, V and all else are as they were. -/
def CompareRule (forms : Byte → Addr → List (Instr × Source)) (ops : List Byte) (reg : State → Byte) : Prop :=
  HasOpcodes forms ops ∧ FaultsWithItsRead forms ∧
  ∀ (b : Byte) (w : Addr), ∀ f ∈ forms b w, ∀ (s t : State) (m : Byte), readSource f.2 s = .ok (m, t) →
    exec f.1 s = .next { s with
      oracle := t.oracle
      p := { s.p with
        c := decide (m.toNat ≤ (reg s).toNat)
        z := decide (reg s = m)
        n := decide (128 ≤ ((reg s).toNat + (256 - m.toNat)) % 256) } }

/-- CMP, CPX and CPY in every form (42_alu.md sections 1 and 4; C as "not borrow" is the spec's general knowledge). -/
def Obligations.ComparesSetCZN : Prop :=
  CompareRule cmpForms [0xC9, 0xC5, 0xD5, 0xCD, 0xDD, 0xD9, 0xC1, 0xD1] State.a ∧
  CompareRule cpxForms [0xE0, 0xE4, 0xEC] State.x ∧ CompareRule cpyForms [0xC0, 0xC4, 0xCC] State.y

/-- BIT in both forms (42_alu.md section 4; the N and V rule is the spec's general knowledge): Z from `A & m`, N and V from bits 7 and 6 of `m`; A, C and all else are as they were. -/
def Obligations.BitCopiesBitsOfMemory : Prop :=
  HasOpcodes bitForms [0x24, 0x2C] ∧ FaultsWithItsRead bitForms ∧
  ∀ (b : Byte) (w : Addr), ∀ f ∈ bitForms b w, ∀ (s t : State) (m : Byte), readSource f.2 s = .ok (m, t) →
    exec f.1 s = .next { s with
      oracle := t.oracle
      p := { s.p with z := decide (s.a &&& m = 0), n := m.getLsbD 7, v := m.getLsbD 6 } }

/-! ## Shifts, increment and decrement -/

/-- The status after a read-modify-write that leaves `r`, with the carry `c`. -/
def updatedStatus (p : Status) (r : Byte) (c : Bool) : Status :=
  { p with c := c, z := decide (r.toNat = 0), n := decide (128 ≤ r.toNat) }

/-- The rule of one mnemonic's memory forms and their opcodes, `a` the address the mode resolves to: the byte at `a` is read, the
new byte is written to `a`, and the flags are set. Under the flat backend every other byte and all of the rest is as
before; under the oracle the read and the write are checked. `r` and `c` give the result and the carry from the old byte
and carry. -/
def UpdateRule (forms : Byte → Addr → List (Instr × LocMode)) (ops : List Byte) (r : Byte → Bool → Nat)
    (c : Byte → Bool → Bool) : Prop :=
  HasOpcodes forms ops ∧ FaultsWithItsPointer forms ∧
  ∀ (b : Byte) (w : Addr), ∀ f ∈ forms b w, ∀ (s t : State) (a : Addr), resolve f.2 s = .ok (.mem a, t) →
    (s.params.backend = .flat →
      ∃ u, exec f.1 s = .next u ∧
        u.mem.byteAt a = BitVec.ofNat 8 (r (s.mem.byteAt a) s.p.c) ∧ (∀ d, d ≠ a → u.mem.byteAt d = s.mem.byteAt d) ∧
        u = { s with mem := u.mem, p := updatedStatus s.p (u.mem.byteAt a) (c (s.mem.byteAt a) s.p.c) }) ∧
    (s.params.backend = .oracle →
      (∀ e, readByte a t = .error e → exec f.1 s = .fault e) ∧
      ∀ v t', readByte a t = .ok (v, t') →
        (tableGet a.toNat s.oracle.expWrite = some (BitVec.ofNat 8 (r v s.p.c)) →
          ∃ u, exec f.1 s = .next u ∧ tableGet a.toNat u.oracle.performed = some () ∧
            u = { s with oracle := u.oracle, p := updatedStatus s.p (BitVec.ofNat 8 (r v s.p.c)) (c v s.p.c) }) ∧
        (tableGet a.toNat s.oracle.expWrite = none →
          exec f.1 s = .fault (.writeUndeclared a (BitVec.ofNat 8 (r v s.p.c)))) ∧
        ∀ e, tableGet a.toNat s.oracle.expWrite = some e → e ≠ BitVec.ofNat 8 (r v s.p.c) →
          exec f.1 s = .fault (.writeMismatch a e (BitVec.ofNat 8 (r v s.p.c))))

/-- The rule of one shift's Accumulator form and its opcode: A takes the place of the byte, and there is no data access. -/
def AccumulatorRule (i : Instr) (op : Byte) (r : Byte → Bool → Nat) (c : Byte → Bool → Bool) : Prop :=
  instrOpcode i = op ∧
  ∀ s : State, exec i s = .next { s with
    a := BitVec.ofNat 8 (r s.a s.p.c), p := updatedStatus s.p (BitVec.ofNat 8 (r s.a s.p.c)) (c s.a s.p.c) }

/-- ASL, LSR, ROL and ROR in every form, memory and Accumulator (R201 to R204): the bit shifted out is C, and ROL and ROR take
the old carry in at bit 0 and bit 7. -/
def Obligations.ShiftsMoveOneBit : Prop :=
  (UpdateRule aslForms [0x06, 0x16, 0x0E, 0x1E] (fun v _ => v.toNat * 2) (fun v _ => decide (128 ≤ v.toNat)) ∧
   UpdateRule lsrForms [0x46, 0x56, 0x4E, 0x5E] (fun v _ => v.toNat / 2) (fun v _ => decide (v.toNat % 2 = 1)) ∧
   UpdateRule rolForms [0x26, 0x36, 0x2E, 0x3E] (fun v c => v.toNat * 2 + c.toNat) (fun v _ => decide (128 ≤ v.toNat)) ∧
   UpdateRule rorForms [0x66, 0x76, 0x6E, 0x7E] (fun v c => v.toNat / 2 + c.toNat * 128) (fun v _ => decide (v.toNat % 2 = 1))) ∧
  AccumulatorRule .aslA 0x0A (fun v _ => v.toNat * 2) (fun v _ => decide (128 ≤ v.toNat)) ∧
  AccumulatorRule .lsrA 0x4A (fun v _ => v.toNat / 2) (fun v _ => decide (v.toNat % 2 = 1)) ∧
  AccumulatorRule .rolA 0x2A (fun v c => v.toNat * 2 + c.toNat) (fun v _ => decide (128 ≤ v.toNat)) ∧
  AccumulatorRule .rorA 0x6A (fun v c => v.toNat / 2 + c.toNat * 128) (fun v _ => decide (v.toNat % 2 = 1))

/-- INC and DEC in every form (R205, R206): the byte plus or minus 1 modulo 256, Z and N from it, C and V as they were. -/
def Obligations.IncDecOfMemory : Prop :=
  UpdateRule incForms [0xE6, 0xF6, 0xEE, 0xFE] (fun v _ => v.toNat + 1) (fun _ c => c) ∧
  UpdateRule decForms [0xC6, 0xD6, 0xCE, 0xDE] (fun v _ => v.toNat + 255) (fun _ c => c)

/-! ## Control transfer -/

/-- The rule of one branch: taken exactly when the condition holds of P, to `PC_next` plus the signed offset modulo 65536;
nothing but PC changes. -/
def BranchRule (i : Byte → Instr) (op : Byte) (cond : Status → Bool) : Prop :=
  ∀ (off : Byte) (s : State), instrOpcode (i off) = op ∧ exec (i off) s = .next { s with
    pc := if cond s.p then BitVec.ofInt 16 (s.pc.toNat + off.toInt) else s.pc }

/-- The eight branches (R221 to R228). -/
def Obligations.BranchesTestOneFlag : Prop :=
  BranchRule .bcc 0x90 (fun p => !p.c) ∧ BranchRule .bcs 0xB0 (fun p => p.c) ∧ BranchRule .beq 0xF0 (fun p => p.z) ∧
  BranchRule .bne 0xD0 (fun p => !p.z) ∧ BranchRule .bmi 0x30 (fun p => p.n) ∧ BranchRule .bpl 0x10 (fun p => !p.n) ∧
  BranchRule .bvc 0x50 (fun p => !p.v) ∧ BranchRule .bvs 0x70 (fun p => p.v)

/-- JMP in both forms (R229, R137): PC is the operand word, or the word whose low byte is at the pointer and whose high byte is
at the next address of the same page; nothing but PC (and a spent read expectation) changes; a violation in reading the
pointer is the fault. -/
def Obligations.JumpsSetPC : Prop :=
  (∀ (w : Addr) (s : State), instrOpcode (.jmpAbs w) = 0x4C ∧ instrOpcode (.jmpInd w) = 0x6C ∧
    exec (.jmpAbs w) s = .next { s with pc := w }) ∧
  (∀ (p : Addr) (s : State) (e : Fault), readByte p s = .error e → exec (.jmpInd p) s = .fault e) ∧
  (∀ (p : Addr) (s t : State) (lo : Byte) (e : Fault), readByte p s = .ok (lo, t) →
    readByte (if p.toNat % 256 = 255 then p - 255 else p + 1) t = .error e → exec (.jmpInd p) s = .fault e) ∧
  ∀ (p : Addr) (s t u : State) (lo hi : Byte), readByte p s = .ok (lo, t) →
    readByte (if p.toNat % 256 = 255 then p - 255 else p + 1) t = .ok (hi, u) →
    exec (.jmpInd p) s = .next { s with oracle := u.oracle, pc := BitVec.ofNat 16 (hi.toNat * 256 + lo.toNat) }

/-- The stack page's address of a stack pointer (10_state.md section 1; the page is decision D4, spec/'s own). -/
def page1 (sp : Byte) : Addr := BitVec.ofNat 16 (256 + sp.toNat)

/-- JSR (44_control.md section 2; the stack is decision D4 and the order D16, spec/'s own) under the flat backend: the address of
JSR's last byte is pushed, high byte at SP, low byte at SP - 1 modulo 256; SP is less by 2, PC is the target; every other
byte and all of the rest is as before. -/
def Obligations.JsrPushesTheReturnAddress : Prop :=
  (∀ w : Addr, instrOpcode (.jsr w) = 0x20) ∧
  ∀ (w : Addr) (s : State), s.params.backend = .flat →
    ∃ u, exec (.jsr w) s = .next u ∧ u = { s with mem := u.mem, sp := s.sp - 2, pc := w } ∧
      u.mem.byteAt (page1 s.sp) = hiByte (s.pc - 1) ∧ u.mem.byteAt (page1 (s.sp - 1)) = loByte (s.pc - 1) ∧
      ∀ d, d ≠ page1 s.sp → d ≠ page1 (s.sp - 1) → u.mem.byteAt d = s.mem.byteAt d

/-- RTS (44_control.md section 2; decision D4) under the flat backend: PC is the pulled word, low byte first, plus 1 modulo
65536; SP is more by 2; all else is as before. -/
def Obligations.RtsPullsAndAddsOne : Prop :=
  instrOpcode .rts = 0x60 ∧
  ∀ s : State, s.params.backend = .flat →
    exec .rts s = .next { s with
      sp := s.sp + 2
      pc := BitVec.ofNat 16
        ((s.mem.byteAt (page1 (s.sp + 2))).toNat * 256 + (s.mem.byteAt (page1 (s.sp + 1))).toNat + 1) }

/-- RTS undoes the frame of JSR: after a JSR, from any PC and any registers but SP, RTS goes to the byte after the JSR and
restores SP, with memory untouched (44_control.md section 2). -/
def Obligations.RtsReturnsFromJsr : Prop :=
  ∀ (w : Addr) (s u t : State), s.params.backend = .flat → exec (.jsr w) s = .next u →
    t.params = u.params → t.mem = u.mem → t.sp = u.sp →
    exec .rts t = .next { t with sp := s.sp, pc := s.pc }

/-- BRK (44_control.md section 3; decisions D3, D4, D21, spec/'s own) under the flat backend: PC_next + 1 is pushed, high byte
first, then P with bits 5 and 4 set; I is set; PC is the word at 0xFFFE, read after the pushes; D and all else are as
before. -/
def Obligations.BrkTakesTheTrap : Prop :=
  instrOpcode .brk = 0x00 ∧
  ∀ s : State, s.params.backend = .flat →
    ∃ u, exec .brk s = .next u ∧
      u = { s with
        mem := u.mem
        sp := s.sp - 3
        p := { s.p with i := true }
        pc := BitVec.ofNat 16 ((s.mem.byteAt 0xFFFF).toNat * 256 + (s.mem.byteAt 0xFFFE).toNat) } ∧
      u.mem.byteAt (page1 s.sp) = hiByte (s.pc + 1) ∧ u.mem.byteAt (page1 (s.sp - 1)) = loByte (s.pc + 1) ∧
      u.mem.byteAt (page1 (s.sp - 2)) = s.p.toByte ||| 0x30 ∧
      ∀ d, d ≠ page1 s.sp → d ≠ page1 (s.sp - 1) → d ≠ page1 (s.sp - 2) → u.mem.byteAt d = s.mem.byteAt d

/-- RTI (44_control.md section 2; decisions D3, D4) under the flat backend: P is loaded from the pulled byte, bits 5 and 4
ignored; PC is the pulled word, low byte first, with nothing added; SP is more by 3; all else is as before. -/
def Obligations.RtiLoadsPAndPC : Prop :=
  instrOpcode .rti = 0x40 ∧
  ∀ s : State, s.params.backend = .flat →
    ∃ p : Status, p.toByte = (s.mem.byteAt (page1 (s.sp + 1)) ||| 0x20) &&& 0xEF ∧
      exec .rti s = .next { s with
        sp := s.sp + 3
        p := p
        pc := BitVec.ofNat 16
          ((s.mem.byteAt (page1 (s.sp + 3))).toNat * 256 + (s.mem.byteAt (page1 (s.sp + 2))).toNat) }

/-- RTI undoes the frame of BRK: it gives back P whole, SP, and PC two bytes past the BRK's opcode (60_exceptions.md section 3,
44_control.md section 2). -/
def Obligations.RtiReturnsFromBrk : Prop :=
  ∀ s u t : State, s.params.backend = .flat → exec .brk s = .next u →
    t.params = u.params → t.mem = u.mem → t.sp = u.sp →
    exec .rti t = .next { t with sp := s.sp, p := s.p, pc := s.pc + 1 }

/-! ## Single-mode instructions -/

/-- Z and N from a byte. -/
def withZN (p : Status) (v : Byte) : Status := { p with z := decide (v = 0), n := v.getLsbD 7 }

/-- The six transfers (R251 to R256): the destination is the source; Z and N are from it, but for TXS, which changes no flag;
all else is as it was. -/
def Obligations.TransfersCopyARegister : Prop :=
  [Instr.tax, .tay, .txa, .tya, .tsx, .txs].map instrOpcode = [0xAA, 0xA8, 0x8A, 0x98, 0xBA, 0x9A] ∧
  ∀ s : State,
    exec .tax s = .next { s with x := s.a, p := withZN s.p s.a } ∧
    exec .tay s = .next { s with y := s.a, p := withZN s.p s.a } ∧
    exec .txa s = .next { s with a := s.x, p := withZN s.p s.x } ∧
    exec .tya s = .next { s with a := s.y, p := withZN s.p s.y } ∧
    exec .tsx s = .next { s with x := s.sp, p := withZN s.p s.sp } ∧
    exec .txs s = .next { s with sp := s.x }

/-- The rule of one push of the byte `v s`. Under the flat backend it is the byte at SP in the stack page, every other byte is
as before, and SP is less by 1 modulo 256; under the oracle the one write is checked. -/
def PushRule (i : Instr) (v : State → Byte) : Prop :=
  ∀ s : State,
    (s.params.backend = .flat →
      ∃ u, exec i s = .next u ∧ u = { s with mem := u.mem, sp := s.sp - 1 } ∧ u.mem.byteAt (page1 s.sp) = v s ∧
        ∀ c, c ≠ page1 s.sp → u.mem.byteAt c = s.mem.byteAt c) ∧
    (s.params.backend = .oracle →
      (tableGet (page1 s.sp).toNat s.oracle.expWrite = some (v s) →
        ∃ u, exec i s = .next u ∧ u = { s with oracle := u.oracle, sp := s.sp - 1 } ∧
          tableGet (page1 s.sp).toNat u.oracle.performed = some ()) ∧
      (tableGet (page1 s.sp).toNat s.oracle.expWrite = none → exec i s = .fault (.writeUndeclared (page1 s.sp) (v s))) ∧
      ∀ e, tableGet (page1 s.sp).toNat s.oracle.expWrite = some e → e ≠ v s →
        exec i s = .fault (.writeMismatch (page1 s.sp) e (v s)))

/-- PHA pushes A, PHP pushes P with bits 5 and 4 set (45_single_mode.md section 2; decisions D3, D4, spec/'s own). -/
def Obligations.PushesWriteOneByte : Prop :=
  [Instr.pha, .php].map instrOpcode = [0x48, 0x08] ∧ PushRule .pha State.a ∧ PushRule .php (fun s => s.p.toByte ||| 0x30)

/-- PLA and PLP (45_single_mode.md section 2; decisions D3, D4) under either backend: SP is more by 1 modulo 256, one read there;
PLA sets A, Z and N; PLP loads P, bits 5 and 4 ignored; all else is as it was; a violation of the read is the fault. -/
def Obligations.PullsReadOneByte : Prop :=
  [Instr.pla, .plp].map instrOpcode = [0x68, 0x28] ∧
  (∀ (s : State) (e : Fault), readByte (page1 (s.sp + 1)) s = .error e →
    exec .pla s = .fault e ∧ exec .plp s = .fault e) ∧
  ∀ (s t : State) (v : Byte), readByte (page1 (s.sp + 1)) s = .ok (v, t) →
    exec .pla s = .next { s with oracle := t.oracle, sp := s.sp + 1, a := v, p := withZN s.p v } ∧
    ∃ p : Status, p.toByte = (v ||| 0x20) &&& 0xEF ∧
      exec .plp s = .next { s with oracle := t.oracle, sp := s.sp + 1, p := p }

/-- The seven flag instructions (R261 to R267) change one flag and nothing else; NOP (R272) changes nothing, PC being past its
byte already: a step that finds its opcode moves PC by 1 and does nothing else. -/
def Obligations.FlagInstructionsSetOneFlag : Prop :=
  [Instr.clc, .sec, .cli, .sei, .cld, .sed, .clv, .nop].map instrOpcode = [0x18, 0x38, 0x58, 0x78, 0xD8, 0xF8, 0xB8, 0xEA] ∧
  (∀ s : State,
    exec .clc s = .next { s with p := { s.p with c := false } } ∧
    exec .sec s = .next { s with p := { s.p with c := true } } ∧
    exec .cli s = .next { s with p := { s.p with i := false } } ∧
    exec .sei s = .next { s with p := { s.p with i := true } } ∧
    exec .cld s = .next { s with p := { s.p with d := false } } ∧
    exec .sed s = .next { s with p := { s.p with d := true } } ∧
    exec .clv s = .next { s with p := { s.p with v := false } } ∧
    exec .nop s = .next s) ∧
  ∀ s : State, s.run = .running → s.params.backend = .flat → s.mem.byteAt s.pc = 0xEA → 0xEA ∈ s.params.implemented →
    step s = .next { s with pc := s.pc + 1 }

/-- INX, INY, DEX and DEY (R268 to R271): plus or minus 1 modulo 256, Z and N from the result, all else as it was. -/
def Obligations.IndexIncDecWraps : Prop :=
  [Instr.inx, .iny, .dex, .dey].map instrOpcode = [0xE8, 0xC8, 0xCA, 0x88] ∧
  ∀ s : State,
    (let r := BitVec.ofNat 8 (s.x.toNat + 1); exec .inx s = .next { s with x := r, p := withZN s.p r }) ∧
    (let r := BitVec.ofNat 8 (s.y.toNat + 1); exec .iny s = .next { s with y := r, p := withZN s.p r }) ∧
    (let r := BitVec.ofNat 8 (s.x.toNat + 255); exec .dex s = .next { s with x := r, p := withZN s.p r }) ∧
    (let r := BitVec.ofNat 8 (s.y.toNat + 255); exec .dey s = .next { s with y := r, p := withZN s.p r })

/-! ## The status register -/

/-- P as a byte (10_state.md section 2; the pushed bits are decision D3, spec/'s own): bit by bit; loading a byte ignores bits 5 and 4, which read 1 and 0; the pushed copy has both set, and
loading it gives P back. -/
def Obligations.StatusByteHasHardwiredBits : Prop :=
  (∀ p : Status,
    p.toByte.getLsbD 7 = p.n ∧ p.toByte.getLsbD 6 = p.v ∧ p.toByte.getLsbD 5 = true ∧ p.toByte.getLsbD 4 = false ∧
    p.toByte.getLsbD 3 = p.d ∧ p.toByte.getLsbD 2 = p.i ∧ p.toByte.getLsbD 1 = p.z ∧ p.toByte.getLsbD 0 = p.c ∧
    Status.ofByte p.toByte = p ∧ p.pushByte = p.toByte ||| 0x30 ∧ Status.ofByte p.pushByte = p) ∧
  ∀ v : Byte, (Status.ofByte v).toByte = (v ||| 0x20) &&& 0xEF

/-! ## Rules about the whole machine -/

/-- Only the writers that 10_state.md section 1 lists change a register when an instruction completes: SP (R24), A, X and Y
(whose lists spec/ derives from the instruction rules). -/
def Obligations.OnlyListedInstructionsWriteARegister : Prop :=
  ∀ (i : Instr) (s t : State), exec i s = .next t →
    (t.sp ≠ s.sp → mnemonicOf i ∈ ["TXS", "PHA", "PHP", "PLA", "PLP", "JSR", "RTS", "BRK", "RTI"]) ∧
    (t.a ≠ s.a → mnemonicOf i ∈ ["LDA", "ADC", "SBC", "AND", "ORA", "EOR", "TXA", "TYA", "PLA"] ∨
      mnemonicOf i ∈ ["ASL", "LSR", "ROL", "ROR"] ∧ modeOf i = some .accumulator) ∧
    (t.x ≠ s.x → mnemonicOf i ∈ ["LDX", "TAX", "TSX", "INX", "DEX"]) ∧
    (t.y ≠ s.y → mnemonicOf i ∈ ["LDY", "TAY", "INY", "DEY"])

/-- Only the writers that 10_state.md section 2 lists change a flag when an instruction completes (lists that spec/ derives from
the instruction rules for C, Z, V and N). -/
def Obligations.OnlyListedInstructionsWriteAFlag : Prop :=
  ∀ (i : Instr) (s t : State), exec i s = .next t →
    (t.p.c ≠ s.p.c → mnemonicOf i ∈
      ["ADC", "SBC", "CMP", "CPX", "CPY", "ASL", "LSR", "ROL", "ROR", "CLC", "SEC", "PLP", "RTI"]) ∧
    (t.p.z ≠ s.p.z ∨ t.p.n ≠ s.p.n → mnemonicOf i ∈
      ["LDA", "LDX", "LDY", "TAX", "TAY", "TXA", "TYA", "TSX", "PLA", "ADC", "SBC", "AND", "ORA", "EOR", "CMP", "CPX",
       "CPY", "BIT", "ASL", "LSR", "ROL", "ROR", "INC", "DEC", "INX", "INY", "DEX", "DEY", "PLP", "RTI"]) ∧
    (t.p.i ≠ s.p.i → mnemonicOf i ∈ ["SEI", "CLI", "BRK", "PLP", "RTI"]) ∧
    (t.p.d ≠ s.p.d → mnemonicOf i ∈ ["SED", "CLD", "PLP", "RTI"]) ∧
    (t.p.v ≠ s.p.v → mnemonicOf i ∈ ["ADC", "SBC", "BIT", "CLV", "PLP", "RTI"])

/-- Only branches, jumps, calls, returns and BRK overwrite PC, and only stores, memory read-modify-writes (the shifts and
rotates in a mode other than Accumulator) and pushes write memory (10_state.md section 1, 40_execution.md section 1). -/
def Obligations.OnlyListedInstructionsWritePCOrMemory : Prop :=
  ∀ (i : Instr) (s t : State), exec i s = .next t →
    (t.pc ≠ s.pc → mnemonicOf i ∈
      ["BCC", "BCS", "BEQ", "BNE", "BMI", "BPL", "BVC", "BVS", "JMP", "JSR", "RTS", "RTI", "BRK"]) ∧
    (t.mem ≠ s.mem → mnemonicOf i ∈
      ["STA", "STX", "STY", "INC", "DEC", "JSR", "BRK", "PHA", "PHP"] ∨
      mnemonicOf i ∈ ["ASL", "LSR", "ROL", "ROR"] ∧ modeOf i ≠ some .accumulator)

/-- A run's end is one state (70_reset_and_hazards.md section 3; decision D28, spec/'s own): two runs from one state that end
well at one END_PC end in the same state, which is running with PC = END_PC, and a run that ends badly never ends well. -/
def Obligations.RunEndIsUnique : Prop :=
  ∀ (e : Addr) (s t : State), EndsWell e s t →
    (∀ t', EndsWell e s t' → t' = t) ∧ t.pc = e ∧ t.run = .running ∧ ∀ k f, runTo e k s ≠ .badly f
end

