-- ==== Sys2Proof/Laws/Bits.lean ====
section
/-!
SUPPORT. The byte and word helpers: splitting and joining a word, and the values of the extensions.
-/

namespace Sys2Proof

theorem joinBytes_toNat (hi lo : Byte) : (joinBytes hi lo).toNat = hi.toNat * 256 + lo.toNat := by
  have h : (joinBytes hi lo).toNat = hi.toNat <<< 8 ||| lo.toNat := BitVec.toNat_append hi lo
  rw [h, ← Nat.shiftLeft_add_eq_or_of_lt (by omega), Nat.shiftLeft_eq]

theorem hiByte_toNat (w : Addr) : (hiByte w).toNat = w.toNat / 256 := by
  have h : (hiByte w).toNat = w.toNat >>> 8 % 2 ^ 8 := by simp [hiByte]
  rw [h, Nat.shiftRight_eq_div_pow]
  omega

theorem loByte_toNat (w : Addr) : (loByte w).toNat = w.toNat % 256 := by
  simp [loByte]

@[simp] theorem hiByte_joinBytes (hi lo : Byte) : hiByte (joinBytes hi lo) = hi := by
  apply BitVec.eq_of_toNat_eq
  rw [hiByte_toNat, joinBytes_toNat]
  omega

@[simp] theorem loByte_joinBytes (hi lo : Byte) : loByte (joinBytes hi lo) = lo := by
  apply BitVec.eq_of_toNat_eq
  rw [loByte_toNat, joinBytes_toNat]
  omega

@[simp] theorem joinBytes_hiByte_loByte (w : Addr) : joinBytes (hiByte w) (loByte w) = w := by
  apply BitVec.eq_of_toNat_eq
  rw [joinBytes_toNat, hiByte_toNat, loByte_toNat]
  omega

theorem zext16_toNat (b : Byte) : (zext16 b).toNat = b.toNat := by
  simp [zext16]
  omega

theorem sext16_toInt (b : Byte) : (sext16 b).toInt = b.toInt := by
  simp only [sext16]
  exact BitVec.toInt_signExtend_of_le (by omega)

/-- Bit 7 of a byte is its sign. -/
theorem getLsbD_seven (w : Byte) : w.getLsbD 7 = decide (128 ≤ w.toNat) := by
  have h : ∀ n : Fin 256, (BitVec.ofFin n : Byte).getLsbD 7 = decide (128 ≤ (BitVec.ofFin n : Byte).toNat) := by
    decide +kernel
  exact h w.toFin

theorem byte_toInt (w : Byte) : w.toInt = if 128 ≤ w.toNat then (w.toNat : Int) - 256 else w.toNat := by
  rw [BitVec.toInt_eq_toNat_cond]
  split <;> split <;> omega

end Sys2Proof
end

