-- ==== Sys2Proof/Laws/PerInstr.lean ====
section
/-!
SUPPORT. Laws stated for every instruction and proved a constructor at a time. EncodeForm: what the decoder's table says of
the bytes of a well-formed instruction: the opcode's form takes exactly the operand bytes that the encoding has, and
makes the instruction from them.
-/

namespace Sys2Proof.Laws.EncodeForm

/-- The form of the opcode of `i` takes the operand bytes of `i` and makes `i` from them. -/
def Statement (i : Instr) : Prop :=
  i.wf = true →
    match encode i with
    | [op] => decodeOpcode op = .op0 i
    | [op, b] => ∃ k, decodeOpcode op = .op1 k ∧ k b = i
    | [op, lo, hi] => ∃ k, decodeOpcode op = .op2 k ∧ k (joinBytes hi lo) = i
    | _ => False

theorem ldaImm (b : Byte) : Statement (.ldaImm b) := fun _ => ⟨_, rfl, rfl⟩
theorem ldaZp (b : Byte) : Statement (.ldaZp b) := fun _ => ⟨_, rfl, rfl⟩
theorem ldaZpX (b : Byte) : Statement (.ldaZpX b) := fun _ => ⟨_, rfl, rfl⟩
theorem ldaAbs (w : Addr) : Statement (.ldaAbs w) := fun _ => ⟨_, rfl, congrArg _ (joinBytes_hiByte_loByte w)⟩
theorem ldaAbsX (w : Addr) : Statement (.ldaAbsX w) := fun _ => ⟨_, rfl, congrArg _ (joinBytes_hiByte_loByte w)⟩
theorem ldaAbsY (w : Addr) : Statement (.ldaAbsY w) := fun _ => ⟨_, rfl, congrArg _ (joinBytes_hiByte_loByte w)⟩
theorem ldaIndX (b : Byte) : Statement (.ldaIndX b) := fun _ => ⟨_, rfl, rfl⟩
theorem ldaIndY (b : Byte) : Statement (.ldaIndY b) := fun _ => ⟨_, rfl, rfl⟩
theorem ldxImm (b : Byte) : Statement (.ldxImm b) := fun _ => ⟨_, rfl, rfl⟩
theorem ldxZp (b : Byte) : Statement (.ldxZp b) := fun _ => ⟨_, rfl, rfl⟩
theorem ldxZpY (b : Byte) : Statement (.ldxZpY b) := fun _ => ⟨_, rfl, rfl⟩
theorem ldxAbs (w : Addr) : Statement (.ldxAbs w) := fun _ => ⟨_, rfl, congrArg _ (joinBytes_hiByte_loByte w)⟩
theorem ldxAbsY (w : Addr) : Statement (.ldxAbsY w) := fun _ => ⟨_, rfl, congrArg _ (joinBytes_hiByte_loByte w)⟩
theorem ldyImm (b : Byte) : Statement (.ldyImm b) := fun _ => ⟨_, rfl, rfl⟩
theorem ldyZp (b : Byte) : Statement (.ldyZp b) := fun _ => ⟨_, rfl, rfl⟩
theorem ldyZpX (b : Byte) : Statement (.ldyZpX b) := fun _ => ⟨_, rfl, rfl⟩
theorem ldyAbs (w : Addr) : Statement (.ldyAbs w) := fun _ => ⟨_, rfl, congrArg _ (joinBytes_hiByte_loByte w)⟩
theorem ldyAbsX (w : Addr) : Statement (.ldyAbsX w) := fun _ => ⟨_, rfl, congrArg _ (joinBytes_hiByte_loByte w)⟩
theorem staZp (b : Byte) : Statement (.staZp b) := fun _ => ⟨_, rfl, rfl⟩
theorem staZpX (b : Byte) : Statement (.staZpX b) := fun _ => ⟨_, rfl, rfl⟩
theorem staAbs (w : Addr) : Statement (.staAbs w) := fun _ => ⟨_, rfl, congrArg _ (joinBytes_hiByte_loByte w)⟩
theorem staAbsX (w : Addr) : Statement (.staAbsX w) := fun _ => ⟨_, rfl, congrArg _ (joinBytes_hiByte_loByte w)⟩
theorem staAbsY (w : Addr) : Statement (.staAbsY w) := fun _ => ⟨_, rfl, congrArg _ (joinBytes_hiByte_loByte w)⟩
theorem staIndX (b : Byte) : Statement (.staIndX b) := fun _ => ⟨_, rfl, rfl⟩
theorem staIndY (b : Byte) : Statement (.staIndY b) := fun _ => ⟨_, rfl, rfl⟩
theorem stxZp (b : Byte) : Statement (.stxZp b) := fun _ => ⟨_, rfl, rfl⟩
theorem stxZpY (b : Byte) : Statement (.stxZpY b) := fun _ => ⟨_, rfl, rfl⟩
theorem stxAbs (w : Addr) : Statement (.stxAbs w) := fun _ => ⟨_, rfl, congrArg _ (joinBytes_hiByte_loByte w)⟩
theorem styZp (b : Byte) : Statement (.styZp b) := fun _ => ⟨_, rfl, rfl⟩
theorem styZpX (b : Byte) : Statement (.styZpX b) := fun _ => ⟨_, rfl, rfl⟩
theorem styAbs (w : Addr) : Statement (.styAbs w) := fun _ => ⟨_, rfl, congrArg _ (joinBytes_hiByte_loByte w)⟩
theorem adcImm (b : Byte) : Statement (.adcImm b) := fun _ => ⟨_, rfl, rfl⟩
theorem adcZp (b : Byte) : Statement (.adcZp b) := fun _ => ⟨_, rfl, rfl⟩
theorem adcZpX (b : Byte) : Statement (.adcZpX b) := fun _ => ⟨_, rfl, rfl⟩
theorem adcAbs (w : Addr) : Statement (.adcAbs w) := fun _ => ⟨_, rfl, congrArg _ (joinBytes_hiByte_loByte w)⟩
theorem adcAbsX (w : Addr) : Statement (.adcAbsX w) := fun _ => ⟨_, rfl, congrArg _ (joinBytes_hiByte_loByte w)⟩
theorem adcAbsY (w : Addr) : Statement (.adcAbsY w) := fun _ => ⟨_, rfl, congrArg _ (joinBytes_hiByte_loByte w)⟩
theorem adcIndX (b : Byte) : Statement (.adcIndX b) := fun _ => ⟨_, rfl, rfl⟩
theorem adcIndY (b : Byte) : Statement (.adcIndY b) := fun _ => ⟨_, rfl, rfl⟩
theorem sbcImm (b : Byte) : Statement (.sbcImm b) := fun _ => ⟨_, rfl, rfl⟩
theorem sbcZp (b : Byte) : Statement (.sbcZp b) := fun _ => ⟨_, rfl, rfl⟩
theorem sbcZpX (b : Byte) : Statement (.sbcZpX b) := fun _ => ⟨_, rfl, rfl⟩
theorem sbcAbs (w : Addr) : Statement (.sbcAbs w) := fun _ => ⟨_, rfl, congrArg _ (joinBytes_hiByte_loByte w)⟩
theorem sbcAbsX (w : Addr) : Statement (.sbcAbsX w) := fun _ => ⟨_, rfl, congrArg _ (joinBytes_hiByte_loByte w)⟩
theorem sbcAbsY (w : Addr) : Statement (.sbcAbsY w) := fun _ => ⟨_, rfl, congrArg _ (joinBytes_hiByte_loByte w)⟩
theorem sbcIndX (b : Byte) : Statement (.sbcIndX b) := fun _ => ⟨_, rfl, rfl⟩
theorem sbcIndY (b : Byte) : Statement (.sbcIndY b) := fun _ => ⟨_, rfl, rfl⟩
theorem andImm (b : Byte) : Statement (.andImm b) := fun _ => ⟨_, rfl, rfl⟩
theorem andZp (b : Byte) : Statement (.andZp b) := fun _ => ⟨_, rfl, rfl⟩
theorem andZpX (b : Byte) : Statement (.andZpX b) := fun _ => ⟨_, rfl, rfl⟩
theorem andAbs (w : Addr) : Statement (.andAbs w) := fun _ => ⟨_, rfl, congrArg _ (joinBytes_hiByte_loByte w)⟩
theorem andAbsX (w : Addr) : Statement (.andAbsX w) := fun _ => ⟨_, rfl, congrArg _ (joinBytes_hiByte_loByte w)⟩
theorem andAbsY (w : Addr) : Statement (.andAbsY w) := fun _ => ⟨_, rfl, congrArg _ (joinBytes_hiByte_loByte w)⟩
theorem andIndX (b : Byte) : Statement (.andIndX b) := fun _ => ⟨_, rfl, rfl⟩
theorem andIndY (b : Byte) : Statement (.andIndY b) := fun _ => ⟨_, rfl, rfl⟩
theorem oraImm (b : Byte) : Statement (.oraImm b) := fun _ => ⟨_, rfl, rfl⟩
theorem oraZp (b : Byte) : Statement (.oraZp b) := fun _ => ⟨_, rfl, rfl⟩
theorem oraZpX (b : Byte) : Statement (.oraZpX b) := fun _ => ⟨_, rfl, rfl⟩
theorem oraAbs (w : Addr) : Statement (.oraAbs w) := fun _ => ⟨_, rfl, congrArg _ (joinBytes_hiByte_loByte w)⟩
theorem oraAbsX (w : Addr) : Statement (.oraAbsX w) := fun _ => ⟨_, rfl, congrArg _ (joinBytes_hiByte_loByte w)⟩
theorem oraAbsY (w : Addr) : Statement (.oraAbsY w) := fun _ => ⟨_, rfl, congrArg _ (joinBytes_hiByte_loByte w)⟩
theorem oraIndX (b : Byte) : Statement (.oraIndX b) := fun _ => ⟨_, rfl, rfl⟩
theorem oraIndY (b : Byte) : Statement (.oraIndY b) := fun _ => ⟨_, rfl, rfl⟩
theorem eorImm (b : Byte) : Statement (.eorImm b) := fun _ => ⟨_, rfl, rfl⟩
theorem eorZp (b : Byte) : Statement (.eorZp b) := fun _ => ⟨_, rfl, rfl⟩
theorem eorZpX (b : Byte) : Statement (.eorZpX b) := fun _ => ⟨_, rfl, rfl⟩
theorem eorAbs (w : Addr) : Statement (.eorAbs w) := fun _ => ⟨_, rfl, congrArg _ (joinBytes_hiByte_loByte w)⟩
theorem eorAbsX (w : Addr) : Statement (.eorAbsX w) := fun _ => ⟨_, rfl, congrArg _ (joinBytes_hiByte_loByte w)⟩
theorem eorAbsY (w : Addr) : Statement (.eorAbsY w) := fun _ => ⟨_, rfl, congrArg _ (joinBytes_hiByte_loByte w)⟩
theorem eorIndX (b : Byte) : Statement (.eorIndX b) := fun _ => ⟨_, rfl, rfl⟩
theorem eorIndY (b : Byte) : Statement (.eorIndY b) := fun _ => ⟨_, rfl, rfl⟩
theorem cmpImm (b : Byte) : Statement (.cmpImm b) := fun _ => ⟨_, rfl, rfl⟩
theorem cmpZp (b : Byte) : Statement (.cmpZp b) := fun _ => ⟨_, rfl, rfl⟩
theorem cmpZpX (b : Byte) : Statement (.cmpZpX b) := fun _ => ⟨_, rfl, rfl⟩
theorem cmpAbs (w : Addr) : Statement (.cmpAbs w) := fun _ => ⟨_, rfl, congrArg _ (joinBytes_hiByte_loByte w)⟩
theorem cmpAbsX (w : Addr) : Statement (.cmpAbsX w) := fun _ => ⟨_, rfl, congrArg _ (joinBytes_hiByte_loByte w)⟩
theorem cmpAbsY (w : Addr) : Statement (.cmpAbsY w) := fun _ => ⟨_, rfl, congrArg _ (joinBytes_hiByte_loByte w)⟩
theorem cmpIndX (b : Byte) : Statement (.cmpIndX b) := fun _ => ⟨_, rfl, rfl⟩
theorem cmpIndY (b : Byte) : Statement (.cmpIndY b) := fun _ => ⟨_, rfl, rfl⟩
theorem cpxImm (b : Byte) : Statement (.cpxImm b) := fun _ => ⟨_, rfl, rfl⟩
theorem cpxZp (b : Byte) : Statement (.cpxZp b) := fun _ => ⟨_, rfl, rfl⟩
theorem cpxAbs (w : Addr) : Statement (.cpxAbs w) := fun _ => ⟨_, rfl, congrArg _ (joinBytes_hiByte_loByte w)⟩
theorem cpyImm (b : Byte) : Statement (.cpyImm b) := fun _ => ⟨_, rfl, rfl⟩
theorem cpyZp (b : Byte) : Statement (.cpyZp b) := fun _ => ⟨_, rfl, rfl⟩
theorem cpyAbs (w : Addr) : Statement (.cpyAbs w) := fun _ => ⟨_, rfl, congrArg _ (joinBytes_hiByte_loByte w)⟩
theorem bitZp (b : Byte) : Statement (.bitZp b) := fun _ => ⟨_, rfl, rfl⟩
theorem bitAbs (w : Addr) : Statement (.bitAbs w) := fun _ => ⟨_, rfl, congrArg _ (joinBytes_hiByte_loByte w)⟩
theorem aslA : Statement .aslA := fun _ => rfl
theorem aslZp (b : Byte) : Statement (.aslZp b) := fun _ => ⟨_, rfl, rfl⟩
theorem aslZpX (b : Byte) : Statement (.aslZpX b) := fun _ => ⟨_, rfl, rfl⟩
theorem aslAbs (w : Addr) : Statement (.aslAbs w) := fun _ => ⟨_, rfl, congrArg _ (joinBytes_hiByte_loByte w)⟩
theorem aslAbsX (w : Addr) : Statement (.aslAbsX w) := fun _ => ⟨_, rfl, congrArg _ (joinBytes_hiByte_loByte w)⟩
theorem lsrA : Statement .lsrA := fun _ => rfl
theorem lsrZp (b : Byte) : Statement (.lsrZp b) := fun _ => ⟨_, rfl, rfl⟩
theorem lsrZpX (b : Byte) : Statement (.lsrZpX b) := fun _ => ⟨_, rfl, rfl⟩
theorem lsrAbs (w : Addr) : Statement (.lsrAbs w) := fun _ => ⟨_, rfl, congrArg _ (joinBytes_hiByte_loByte w)⟩
theorem lsrAbsX (w : Addr) : Statement (.lsrAbsX w) := fun _ => ⟨_, rfl, congrArg _ (joinBytes_hiByte_loByte w)⟩
theorem rolA : Statement .rolA := fun _ => rfl
theorem rolZp (b : Byte) : Statement (.rolZp b) := fun _ => ⟨_, rfl, rfl⟩
theorem rolZpX (b : Byte) : Statement (.rolZpX b) := fun _ => ⟨_, rfl, rfl⟩
theorem rolAbs (w : Addr) : Statement (.rolAbs w) := fun _ => ⟨_, rfl, congrArg _ (joinBytes_hiByte_loByte w)⟩
theorem rolAbsX (w : Addr) : Statement (.rolAbsX w) := fun _ => ⟨_, rfl, congrArg _ (joinBytes_hiByte_loByte w)⟩
theorem rorA : Statement .rorA := fun _ => rfl
theorem rorZp (b : Byte) : Statement (.rorZp b) := fun _ => ⟨_, rfl, rfl⟩
theorem rorZpX (b : Byte) : Statement (.rorZpX b) := fun _ => ⟨_, rfl, rfl⟩
theorem rorAbs (w : Addr) : Statement (.rorAbs w) := fun _ => ⟨_, rfl, congrArg _ (joinBytes_hiByte_loByte w)⟩
theorem rorAbsX (w : Addr) : Statement (.rorAbsX w) := fun _ => ⟨_, rfl, congrArg _ (joinBytes_hiByte_loByte w)⟩
theorem incZp (b : Byte) : Statement (.incZp b) := fun _ => ⟨_, rfl, rfl⟩
theorem incZpX (b : Byte) : Statement (.incZpX b) := fun _ => ⟨_, rfl, rfl⟩
theorem incAbs (w : Addr) : Statement (.incAbs w) := fun _ => ⟨_, rfl, congrArg _ (joinBytes_hiByte_loByte w)⟩
theorem incAbsX (w : Addr) : Statement (.incAbsX w) := fun _ => ⟨_, rfl, congrArg _ (joinBytes_hiByte_loByte w)⟩
theorem decZp (b : Byte) : Statement (.decZp b) := fun _ => ⟨_, rfl, rfl⟩
theorem decZpX (b : Byte) : Statement (.decZpX b) := fun _ => ⟨_, rfl, rfl⟩
theorem decAbs (w : Addr) : Statement (.decAbs w) := fun _ => ⟨_, rfl, congrArg _ (joinBytes_hiByte_loByte w)⟩
theorem decAbsX (w : Addr) : Statement (.decAbsX w) := fun _ => ⟨_, rfl, congrArg _ (joinBytes_hiByte_loByte w)⟩
theorem bcc (b : Byte) : Statement (.bcc b) := fun _ => ⟨_, rfl, rfl⟩
theorem bcs (b : Byte) : Statement (.bcs b) := fun _ => ⟨_, rfl, rfl⟩
theorem beq (b : Byte) : Statement (.beq b) := fun _ => ⟨_, rfl, rfl⟩
theorem bne (b : Byte) : Statement (.bne b) := fun _ => ⟨_, rfl, rfl⟩
theorem bmi (b : Byte) : Statement (.bmi b) := fun _ => ⟨_, rfl, rfl⟩
theorem bpl (b : Byte) : Statement (.bpl b) := fun _ => ⟨_, rfl, rfl⟩
theorem bvc (b : Byte) : Statement (.bvc b) := fun _ => ⟨_, rfl, rfl⟩
theorem bvs (b : Byte) : Statement (.bvs b) := fun _ => ⟨_, rfl, rfl⟩
theorem jmpAbs (w : Addr) : Statement (.jmpAbs w) := fun _ => ⟨_, rfl, congrArg _ (joinBytes_hiByte_loByte w)⟩
theorem jmpInd (w : Addr) : Statement (.jmpInd w) := fun _ => ⟨_, rfl, congrArg _ (joinBytes_hiByte_loByte w)⟩
theorem jsr (w : Addr) : Statement (.jsr w) := fun _ => ⟨_, rfl, congrArg _ (joinBytes_hiByte_loByte w)⟩
theorem rts : Statement .rts := fun _ => rfl
theorem rti : Statement .rti := fun _ => rfl
theorem brk : Statement .brk := fun _ => rfl
theorem tax : Statement .tax := fun _ => rfl
theorem tay : Statement .tay := fun _ => rfl
theorem txa : Statement .txa := fun _ => rfl
theorem tya : Statement .tya := fun _ => rfl
theorem tsx : Statement .tsx := fun _ => rfl
theorem txs : Statement .txs := fun _ => rfl
theorem pha : Statement .pha := fun _ => rfl
theorem php : Statement .php := fun _ => rfl
theorem pla : Statement .pla := fun _ => rfl
theorem plp : Statement .plp := fun _ => rfl
theorem clc : Statement .clc := fun _ => rfl
theorem sec : Statement .sec := fun _ => rfl
theorem cli : Statement .cli := fun _ => rfl
theorem sei : Statement .sei := fun _ => rfl
theorem cld : Statement .cld := fun _ => rfl
theorem sed : Statement .sed := fun _ => rfl
theorem clv : Statement .clv := fun _ => rfl
theorem inx : Statement .inx := fun _ => rfl
theorem iny : Statement .iny := fun _ => rfl
theorem dex : Statement .dex := fun _ => rfl
theorem dey : Statement .dey := fun _ => rfl
theorem nop : Statement .nop := fun _ => rfl

theorem unimplemented (op : Byte) : Statement (.unimplemented op) := by
  intro h
  simp only [Instr.wf, Bool.not_eq_true', List.contains_eq_mem, decide_eq_false_iff_not, documentedOpcodes] at h
  simp only [encode, enc0, decodeOpcode]
  have hf : ∀ t : List InstrRecord, op ∉ t.map (·.opcode) → findRecord op t = none := by
    intro t
    induction t with
    | nil => exact fun _ => rfl
    | cons r t ih =>
      intro hn
      simp only [List.map_cons, List.mem_cons, not_or] at hn
      simp only [findRecord, Ne.symm hn.1, ↓reduceIte]
      exact ih hn.2
  rw [hf _ h]

end Sys2Proof.Laws.EncodeForm
end

