-- ==== Sys2Proof/Laws/Decode.lean ====
section
/-!
SUPPORT. The records of the opcode map against the encoder, and finding a record.
-/

namespace Sys2Proof

/-- The per-instruction facts of `EncodeForm`, of every instruction. -/
theorem encodeForm (i : Instr) : Sys2Proof.Laws.EncodeForm.Statement i := by
  cases i with
  | unimplemented op => exact Sys2Proof.Laws.EncodeForm.unimplemented op
  | _ =>
    first
      | exact fun _ => rfl
      | exact fun _ => ⟨_, rfl, rfl⟩
      | exact fun _ => ⟨_, rfl, congrArg _ (joinBytes_hiByte_loByte _)⟩

/-- The instructions that a record makes are well-formed, and encode to its opcode and their operand bytes. -/
def InstrRecord.Makes (r : InstrRecord) : Prop :=
  match r.form with
  | .op0 i => encode i = [r.opcode] ∧ i.wf = true
  | .op1 k => ∀ b, encode (k b) = [r.opcode, b] ∧ (k b).wf = true
  | .op2 k => ∀ w, encode (k w) = [r.opcode, loByte w, hiByte w] ∧ (k w).wf = true

theorem opcodeTable_makes : ∀ r ∈ opcodeTable, r.Makes := by
  simp only [opcodeTable, List.forall_mem_append]
  refine ⟨?_, ?_, ?_, ?_, ?_, ?_, ?_, ?_, ?_, ?_, ?_, ?_, ?_, ?_, ?_, ?_⟩ <;>
    repeat' first
      | exact List.forall_mem_nil _
      | refine List.forall_mem_cons.mpr ⟨?_, ?_⟩
      | exact ⟨rfl, rfl⟩
      | exact fun _ => ⟨rfl, rfl⟩

theorem findRecord_some {op : Byte} {t : List InstrRecord} {r : InstrRecord} (h : findRecord op t = some r) :
    r ∈ t ∧ r.opcode = op := by
  induction t with
  | nil => cases h
  | cons q t ih =>
    simp only [findRecord] at h
    split at h
    · cases h
      exact ⟨List.mem_cons_self .., ‹_›⟩
    · exact ⟨List.mem_cons_of_mem _ (ih h).1, (ih h).2⟩

theorem findRecord_isSome_of_mem {t : List InstrRecord} {r : InstrRecord} (h : r ∈ t) :
    (findRecord r.opcode t).isSome = true := by
  induction t with
  | nil => cases h
  | cons q t ih =>
    simp only [findRecord]
    split
    · rfl
    · rcases List.mem_cons.mp h with rfl | ht
      · contradiction
      · exact ih ht

theorem findRecord_eq_none {op : Byte} : findRecord op opcodeTable = none ↔ op ∉ documentedOpcodes := by
  constructor
  · intro h hm
    obtain ⟨r, hr, rfl⟩ := List.mem_map.mp hm
    simpa [h] using findRecord_isSome_of_mem hr
  · intro h
    cases hf : findRecord op opcodeTable with
    | none => rfl
    | some r =>
      obtain ⟨hr, rfl⟩ := findRecord_some hf
      exact absurd (List.mem_map_of_mem hr) h

end Sys2Proof
end

