-- ==== Sys2Proof/Laws/Memory.lean ====
section
/-!
SUPPORT. Tables and the flat memory: read after write, the canonical form, and that every operation keeps it.
-/

namespace Sys2Proof.Machine

variable {α : Type}

@[simp] theorem tableGet_tableSet_same (k : Nat) (v : α) (t : List (Nat × α)) : tableGet k (tableSet k v t) = some v := by
  induction t with
  | nil => simp [tableSet, tableGet]
  | cons e t ih =>
    obtain ⟨k', v'⟩ := e
    simp only [tableSet]
    split
    · simp [tableGet]
    · split
      · simp [tableGet]
      · rename_i h
        simp [tableGet, Ne.symm h, ih]

theorem tableGet_tableSet_ne {j k : Nat} (h : j ≠ k) (v : α) (t : List (Nat × α)) :
    tableGet j (tableSet k v t) = tableGet j t := by
  induction t with
  | nil => simp [tableSet, tableGet, h.symm]
  | cons e t ih =>
    obtain ⟨k', v'⟩ := e
    simp only [tableSet]
    split
    · simp [tableGet, h.symm]
    · split
      · rename_i hk
        simp [tableGet, h.symm, ← hk]
      · simp [tableGet, ih]

theorem tableGet_tableSet (j k : Nat) (v : α) (t : List (Nat × α)) :
    tableGet j (tableSet k v t) = if j = k then some v else tableGet j t := by
  split
  · subst_vars
    exact tableGet_tableSet_same ..
  · exact tableGet_tableSet_ne ‹_› ..

theorem tableFrom_mono {lo lo' : Nat} (h : lo' ≤ lo) {t : List (Nat × α)} (ht : tableFrom lo t = true) :
    tableFrom lo' t = true := by
  cases t with
  | nil => rfl
  | cons e t =>
    simp only [tableFrom, Bool.and_eq_true, decide_eq_true_eq] at ht ⊢
    exact ⟨⟨by omega, ht.1.2⟩, ht.2⟩

theorem tableFrom_tableSet {lo k : Nat} (hlo : lo ≤ k) (hk : k < 65536) (v : α) {t : List (Nat × α)}
    (ht : tableFrom lo t = true) : tableFrom lo (tableSet k v t) = true := by
  induction t generalizing lo with
  | nil => simp [tableSet, tableFrom, hlo, hk]
  | cons e t ih =>
    obtain ⟨k', v'⟩ := e
    simp only [tableFrom, Bool.and_eq_true, decide_eq_true_eq] at ht
    simp only [tableSet]
    split
    · simp only [tableFrom, Bool.and_eq_true, decide_eq_true_eq]
      exact ⟨⟨hlo, hk⟩, ⟨by omega, ht.1.2⟩, ht.2⟩
    · split
      · subst_vars
        simp only [tableFrom, Bool.and_eq_true, decide_eq_true_eq]
        exact ⟨⟨hlo, hk⟩, ht.2⟩
      · simp only [tableFrom, Bool.and_eq_true, decide_eq_true_eq]
        exact ⟨ht.1, ih (by omega) ht.2⟩

/-- Writing a table at a 16-bit address keeps its canonical form. -/
theorem tableWf_tableSet (a : Addr) (v : α) {t : List (Nat × α)} (ht : tableWf t = true) :
    tableWf (tableSet a.toNat v t) = true :=
  tableFrom_tableSet (Nat.zero_le _) a.isLt v ht

theorem tableGet_none_of_lt {lo k : Nat} (hk : k < lo) {t : List (Nat × α)} (ht : tableFrom lo t = true) :
    tableGet k t = none := by
  induction t generalizing lo with
  | nil => rfl
  | cons e t ih =>
    simp only [tableFrom, Bool.and_eq_true, decide_eq_true_eq] at ht
    simp only [tableGet, show ¬ (e.1 = k) by omega, ↓reduceIte]
    exact ih (by omega) ht.2

/-- Every memory operation keeps the canonical form: the one that writes. -/
theorem Memory.wf_setByte {m : Memory} (h : m.wf = true) (a : Addr) (v : Byte) : (m.setByte a v).wf = true :=
  tableWf_tableSet a v h

@[simp] theorem Memory.byteAt_setByte_same (m : Memory) (a : Addr) (v : Byte) : (m.setByte a v).byteAt a = v := by
  simp [Memory.byteAt, Memory.setByte]

theorem Memory.byteAt_setByte_ne (m : Memory) {a b : Addr} (h : b ≠ a) (v : Byte) :
    (m.setByte a v).byteAt b = m.byteAt b := by
  have h' : b.toNat ≠ a.toNat := fun e => h (BitVec.eq_of_toNat_eq e)
  simp [Memory.byteAt, Memory.setByte, tableGet_tableSet_ne h']

theorem Memory.byteAt_setByte (m : Memory) (a b : Addr) (v : Byte) :
    (m.setByte a v).byteAt b = if b = a then v else m.byteAt b := by
  split
  · subst_vars
    exact Memory.byteAt_setByte_same ..
  · exact Memory.byteAt_setByte_ne m ‹_› v

theorem table_ext {m n : List (Nat × α)} {lo : Nat} (hm : tableFrom lo m = true)
    (hn : tableFrom lo n = true) (h : ∀ k, tableGet k m = tableGet k n) : m = n := by
  induction m generalizing n lo with
  | nil =>
    cases n with
    | nil => rfl
    | cons e n => simpa [tableGet] using h e.1
  | cons e m ih =>
    cases n with
    | nil => simpa [tableGet] using h e.1
    | cons e' n =>
      obtain ⟨k, v⟩ := e
      obtain ⟨k', v'⟩ := e'
      simp only [tableFrom, Bool.and_eq_true, decide_eq_true_eq] at hm hn
      have hk : k = k' := by
        by_contra hne
        rcases Nat.lt_or_gt_of_ne hne with hlt | hlt
        · simpa [tableGet, Ne.symm hne, tableGet_none_of_lt (Nat.lt_succ_of_lt hlt) hn.2] using h k
        · simpa [tableGet, hne, tableGet_none_of_lt (Nat.lt_succ_of_lt hlt) hm.2] using h k'
      subst hk
      have hv : v = v' := by simpa [tableGet] using h k
      subst hv
      rw [ih (lo := k + 1) hm.2 hn.2 fun j => ?_]
      have hj := h j
      by_cases hkj : k = j
      · subst hkj
        rw [tableGet_none_of_lt (Nat.lt_succ_self _) hm.2, tableGet_none_of_lt (Nat.lt_succ_self _) hn.2]
      · simpa [tableGet, hkj] using hj

/-- Equal memories in canonical form are equal data. -/
theorem Memory.ext_of_wf {m n : Memory} (hm : m.wf = true) (hn : n.wf = true)
    (h : ∀ k, tableGet k m = tableGet k n) : m = n := table_ext hm hn h

end Sys2Proof.Machine
end

