-- ==== Sys2Proof/Laws/Ops.lean ====
section
/-!
SUPPORT. One lemma a shared operation: what it answers under the flat backend, and, under any backend, all it can have
done when it answers a state (`Kept`).
-/

namespace Sys2Proof.Machine

@[simp] theorem except_ok_bind {ε α β : Type} (a : α) (f : α → Except ε β) : (Except.ok a >>= f) = f a := rfl

@[simp] theorem except_error_bind {ε α β : Type} (e : ε) (f : α → Except ε β) : (Except.error e >>= f) = .error e := rfl

theorem bind_eq_ok {ε α β : Type} {x : Except ε α} {f : α → Except ε β} {b : β} :
    (x >>= f) = .ok b ↔ ∃ a, x = .ok a ∧ f a = .ok b := by
  cases x <;> simp

theorem finish_eq_next {r : Except Fault State} {t : State} : finish r = .next t ↔ r = .ok t := by
  cases r <;> simp [finish]

@[simp] theorem finish_ok (s : State) : finish (.ok s) = .next s := rfl

@[simp] theorem finish_error (f : Fault) : finish (.error f) = .fault f := rfl

/-! Under the flat backend no operation fails. -/

section Flat
variable {s : State} (h : s.params.backend = .flat)
include h

theorem readByte_flat (a : Addr) : readByte a s = .ok (s.mem.byteAt a, s) := by
  simp [readByte, h]

theorem writeByte_flat (a : Addr) (v : Byte) : writeByte a v s = .ok { s with mem := s.mem.setByte a v } := by
  simp [writeByte, h]

/-- A byte read of the flat backend is one load of the memory unit (decision D26). -/
theorem readByte_flat_memoryUnit (a : Addr) (d : Byte) :
    readByte a s = .ok ((memoryUnit ⟨a, d, 0b11⟩ s.mem).1.data, s) := by
  simp [readByte_flat h, memoryUnit]

/-- A byte write of the flat backend is one store of the memory unit (decision D26). -/
theorem writeByte_flat_memoryUnit (a : Addr) (v : Byte) :
    writeByte a v s = .ok { s with mem := (memoryUnit ⟨a, v, 0b10⟩ s.mem).2 } := by
  simp [writeByte_flat h, memoryUnit]

theorem readWord_flat (a : Addr) : readWord a s = .ok (s.mem.wordAt a, s) := by
  simp [readWord, readByte_flat, h, Memory.wordAt]

theorem fetch8_flat : fetch8 s = .ok (s.mem.byteAt s.pc, { s with pc := s.pc + 1 }) := by
  simp [fetch8, readByte_flat, h]

theorem fetch16_flat : fetch16 s = .ok (s.mem.wordAt s.pc, { s with pc := s.pc + 1 + 1 }) := by
  simp [fetch16, fetch8_flat, h, Memory.wordAt]

theorem push_flat (v : Byte) :
    push v s = .ok { s with mem := s.mem.setByte (stackAddr s.sp) v, sp := s.sp - 1 } := by
  simp [push, writeByte_flat, h]

theorem pull_flat : pull s = .ok (s.mem.byteAt (stackAddr (s.sp + 1)), { s with sp := s.sp + 1 }) := by
  simp [pull, readByte_flat, h]

theorem pushWord_flat (w : Addr) :
    pushWord w s = .ok { s with
      mem := (s.mem.setByte (stackAddr s.sp) (hiByte w)).setByte (stackAddr (s.sp - 1)) (loByte w)
      sp := s.sp - 1 - 1 } := by
  simp [pushWord, push_flat, h]

theorem pullWord_flat :
    pullWord s = .ok (joinBytes (s.mem.byteAt (stackAddr (s.sp + 1 + 1))) (s.mem.byteAt (stackAddr (s.sp + 1))),
      { s with sp := s.sp + 1 + 1 }) := by
  simp [pullWord, pull_flat, h]

theorem readPointer_flat (wrap : Bool) (q : Byte) :
    readPointer wrap q s = .ok (joinBytes (s.mem.byteAt (pointerHigh wrap q)) (s.mem.byteAt (zext16 q)), s) := by
  simp [readPointer, readByte_flat, h]

theorem indirectTarget_flat (p : Addr) :
    indirectTarget p s = .ok (joinBytes (s.mem.byteAt (indirectHigh p)) (s.mem.byteAt p), s) := by
  simp [indirectTarget, readByte_flat, h]

theorem resolve_flat (m : LocMode) : ∃ l, resolve m s = .ok (l, s) := by
  cases m <;> simp [resolve, readPointer_flat, h]

theorem readLoc_flat (l : Loc) : ∃ v, readLoc l s = .ok (v, s) := by
  cases l <;> simp [readLoc, readByte_flat, h]

theorem writeLoc_flat (l : Loc) (v : Byte) : ∃ t, writeLoc l v s = .ok t := by
  cases l <;> simp [writeLoc, writeByte_flat, h]

theorem readSource_flat (src : Source) : ∃ v, readSource src s = .ok (v, s) := by
  cases src with
  | immediate v => exact ⟨v, rfl⟩
  | loc m =>
    obtain ⟨l, hl⟩ := resolve_flat h m
    obtain ⟨v, hv⟩ := readLoc_flat h l
    exact ⟨v, by simp [readSource, hl, hv]⟩

theorem endInstruction_flat : endInstruction s = .ok s := by
  simp [endInstruction, h]

end Flat

/-! Under any backend. -/

/-- A read, under either backend: the state changes in the oracle's read expectations alone. -/
structure ReadOnly (s t : State) : Prop where
  eq : t = { s with oracle := { s.oracle with expRead := t.oracle.expRead } }
  wf : s.oracle.wf = true → t.oracle.wf = true
  flat : s.params.backend = .flat → t = s

theorem ReadOnly.refl (s : State) : ReadOnly s s := ⟨rfl, id, fun _ => rfl⟩

theorem ReadOnly.trans {s t u : State} (h : ReadOnly s t) (k : ReadOnly t u) : ReadOnly s u := by
  obtain ⟨ht, hw, hf⟩ := h
  obtain ⟨hu, kw, kf⟩ := k
  refine ⟨?_, fun w => kw (hw w), fun f => ?_⟩
  · rw [hu, ht]
  · have := hf f
    subst this
    exact kf f

theorem readByte_readOnly {a : Addr} {s t : State} {v : Byte} (h : readByte a s = .ok (v, t)) : ReadOnly s t := by
  cases hb : s.params.backend with
  | flat =>
    rw [readByte_flat hb] at h
    cases h
    exact .refl s
  | oracle =>
    simp only [readByte, hb, oracleRead] at h
    split at h
    · cases h
    · rename_i v o ho
      cases h
      split at ho
      · cases ho
      · cases ho
      · split at ho
        · cases ho
          exact ⟨rfl, id, fun f => by simp [hb] at f⟩
        · cases ho
          refine ⟨rfl, fun w => ?_, fun f => by simp [hb] at f⟩
          simp only [Oracle.wf, Bool.and_eq_true] at w ⊢
          exact ⟨⟨tableWf_tableSet _ _ w.1.1, w.1.2⟩, w.2⟩

theorem readPointer_readOnly {wrap : Bool} {q : Byte} {s t : State} {w : Addr}
    (h : readPointer wrap q s = .ok (w, t)) : ReadOnly s t := by
  simp only [readPointer, bind_eq_ok, Prod.exists] at h
  obtain ⟨_, s1, h1, _, s2, h2, h3⟩ := h
  cases h3
  exact (readByte_readOnly h1).trans (readByte_readOnly h2)

theorem indirectTarget_readOnly {p : Addr} {s t : State} {w : Addr}
    (h : indirectTarget p s = .ok (w, t)) : ReadOnly s t := by
  simp only [indirectTarget, bind_eq_ok, Prod.exists] at h
  obtain ⟨_, s1, h1, _, s2, h2, h3⟩ := h
  cases h3
  exact (readByte_readOnly h1).trans (readByte_readOnly h2)

theorem resolve_readOnly {m : LocMode} {s t : State} {l : Loc} (h : resolve m s = .ok (l, t)) : ReadOnly s t := by
  cases m with
  | indirectX b | indirectY b =>
    simp only [resolve, bind_eq_ok, Prod.exists] at h
    obtain ⟨_, _, h1, h2⟩ := h
    cases h2
    exact readPointer_readOnly h1
  | _ =>
    cases h
    exact .refl s

theorem readLoc_readOnly {l : Loc} {s t : State} {v : Byte} (h : readLoc l s = .ok (v, t)) : ReadOnly s t := by
  cases l with
  | acc =>
    cases h
    exact .refl s
  | mem a => exact readByte_readOnly h

theorem readSource_readOnly {src : Source} {s t : State} {v : Byte} (h : readSource src s = .ok (v, t)) :
    ReadOnly s t := by
  cases src with
  | immediate w =>
    cases h
    exact .refl s
  | loc m =>
    simp only [readSource, bind_eq_ok, Prod.exists] at h
    obtain ⟨_, _, h1, h2⟩ := h
    exact (resolve_readOnly h1).trans (readLoc_readOnly h2)

/-- What every operation and every meaning keeps, whatever else it does. -/
structure Kept (s t : State) : Prop where
  params : t.params = s.params
  run : t.run = s.run
  draws : t.draws = s.draws
  memWf : s.mem.wf = true → t.mem.wf = true
  oracleWf : s.oracle.wf = true → t.oracle.wf = true
  flat : s.params.backend = .flat → t.oracle = s.oracle
  oracle : s.params.backend = .oracle → t.mem = s.mem

theorem Kept.refl (s : State) : Kept s s := ⟨rfl, rfl, rfl, id, id, fun _ => rfl, fun _ => rfl⟩

theorem Kept.trans {s t u : State} (h : Kept s t) (k : Kept t u) : Kept s u where
  params := k.params.trans h.params
  run := k.run.trans h.run
  draws := k.draws.trans h.draws
  memWf := k.memWf ∘ h.memWf
  oracleWf := k.oracleWf ∘ h.oracleWf
  flat f := (k.flat (h.params ▸ f)).trans (h.flat f)
  oracle f := (k.oracle (h.params ▸ f)).trans (h.oracle f)

theorem ReadOnly.kept {s t : State} (h : ReadOnly s t) : Kept s t where
  params := by rw [h.eq]
  run := by rw [h.eq]
  draws := by rw [h.eq]
  memWf w := by rw [h.eq]; exact w
  oracleWf := h.wf
  flat f := by rw [h.flat f]
  oracle _ := by rw [h.eq]

/-- A change of core registers alone keeps all that `Kept` names. -/
theorem Kept.regs {s : State} {a x y sp : Byte} {pc : Addr} {p : Status} :
    Kept s { s with a := a, x := x, y := y, sp := sp, pc := pc, p := p } :=
  ⟨rfl, rfl, rfl, id, id, fun _ => rfl, fun _ => rfl⟩

theorem writeByte_kept {a : Addr} {v : Byte} {s t : State} (h : writeByte a v s = .ok t) : Kept s t := by
  cases hb : s.params.backend with
  | flat =>
    rw [writeByte_flat hb] at h
    cases h
    exact ⟨rfl, rfl, rfl, fun w => Memory.wf_setByte w a v, id, fun _ => rfl, fun f => by simp [hb] at f⟩
  | oracle =>
    simp only [writeByte, hb, oracleWrite] at h
    split at h
    · cases h
    · rename_i o ho
      cases h
      split at ho
      · cases ho
      · split at ho
        · cases ho
          refine ⟨rfl, rfl, rfl, id, fun w => ?_, fun f => by simp [hb] at f, fun _ => rfl⟩
          simp only [Oracle.wf, Bool.and_eq_true] at w ⊢
          exact ⟨w.1, tableWf_tableSet _ _ w.2⟩
        · cases ho

theorem writeLoc_kept {l : Loc} {v : Byte} {s t : State} (h : writeLoc l v s = .ok t) : Kept s t := by
  cases l with
  | acc =>
    cases h
    exact .regs
  | mem a => exact writeByte_kept h

theorem fetch8_kept {s t : State} {v : Byte} (h : fetch8 s = .ok (v, t)) : Kept s t := by
  simp only [fetch8, bind_eq_ok, Prod.exists] at h
  obtain ⟨_, _, h1, h2⟩ := h
  cases h2
  exact (readByte_readOnly h1).kept.trans .regs

theorem fetch16_kept {s t : State} {v : Addr} (h : fetch16 s = .ok (v, t)) : Kept s t := by
  simp only [fetch16, bind_eq_ok, Prod.exists] at h
  obtain ⟨_, _, h1, _, _, h2, h3⟩ := h
  cases h3
  exact (fetch8_kept h1).trans (fetch8_kept h2)

theorem push_kept {v : Byte} {s t : State} (h : push v s = .ok t) : Kept s t := by
  simp only [push, bind_eq_ok] at h
  obtain ⟨_, h1, h2⟩ := h
  cases h2
  exact (writeByte_kept h1).trans .regs

theorem pull_kept {v : Byte} {s t : State} (h : pull s = .ok (v, t)) : Kept s t :=
  Kept.trans .regs (readByte_readOnly h).kept

theorem pushWord_kept {w : Addr} {s t : State} (h : pushWord w s = .ok t) : Kept s t := by
  simp only [pushWord, bind_eq_ok] at h
  obtain ⟨_, h1, h2⟩ := h
  exact (push_kept h1).trans (push_kept h2)

theorem pullWord_kept {w : Addr} {s t : State} (h : pullWord s = .ok (w, t)) : Kept s t := by
  simp only [pullWord, bind_eq_ok, Prod.exists] at h
  obtain ⟨_, _, h1, _, _, h2, h3⟩ := h
  cases h3
  exact (pull_kept h1).trans (pull_kept h2)

theorem takeBreak_kept {s t : State} (h : takeBreak s = .ok t) : Kept s t := by
  simp only [takeBreak, bind_eq_ok, Prod.exists] at h
  obtain ⟨_, h1, _, h2, _, _, h3, _, _, h4, h5⟩ := h
  cases h5
  exact (pushWord_kept h1).trans <| (push_kept h2).trans <| Kept.regs.trans <|
    (readByte_readOnly h3).kept.trans <| (readByte_readOnly h4).kept.trans .regs

theorem returnFromBreak_kept {s t : State} (h : returnFromBreak s = .ok t) : Kept s t := by
  simp only [returnFromBreak, bind_eq_ok, Prod.exists] at h
  obtain ⟨_, _, h1, _, _, h2, h3⟩ := h
  cases h3
  exact (pull_kept h1).trans <| Kept.regs.trans <| (pullWord_kept h2).trans .regs

theorem fetchInstr_kept {s t : State} {i : Instr} (h : fetchInstr s = .ok (i, t)) : Kept s t := by
  simp only [fetchInstr, bind_eq_ok, Prod.exists] at h
  obtain ⟨op, s1, h1, h2⟩ := h
  refine (fetch8_kept h1).trans ?_
  split at h2
  · split at h2
    · cases h2
      exact .refl _
    · simp only [bind_eq_ok, Prod.exists] at h2
      obtain ⟨_, _, h3, h4⟩ := h2
      cases h4
      exact fetch8_kept h3
    · simp only [bind_eq_ok, Prod.exists] at h2
      obtain ⟨_, _, h3, h4⟩ := h2
      cases h4
      exact fetch16_kept h3
  · cases h2
    exact .refl _

end Sys2Proof.Machine
end

