-- ==== Sys2Proof/Laws/Exec.lean ====
section
/-!
SUPPORT. What each operation of the instruction families keeps, and so what `exec` keeps when it answers a next state:
`exec_kept` is the one lemma about all instructions that the invariants rest on.
-/

namespace Sys2Proof.Machine

theorem lda_kept {src : Source} {s t : State} (h : lda src s = .ok t) : Kept s t := by
  simp only [lda, bind_eq_ok, Prod.exists] at h
  obtain ⟨_, _, h1, h2⟩ := h
  cases h2
  exact (readSource_readOnly h1).kept.trans .regs

theorem ldx_kept {src : Source} {s t : State} (h : ldx src s = .ok t) : Kept s t := by
  simp only [ldx, bind_eq_ok, Prod.exists] at h
  obtain ⟨_, _, h1, h2⟩ := h
  cases h2
  exact (readSource_readOnly h1).kept.trans .regs

theorem ldy_kept {src : Source} {s t : State} (h : ldy src s = .ok t) : Kept s t := by
  simp only [ldy, bind_eq_ok, Prod.exists] at h
  obtain ⟨_, _, h1, h2⟩ := h
  cases h2
  exact (readSource_readOnly h1).kept.trans .regs

theorem adc_kept {src : Source} {s t : State} (h : adc src s = .ok t) : Kept s t := by
  simp only [adc, bind_eq_ok, Prod.exists] at h
  obtain ⟨_, _, h1, h2⟩ := h
  cases h2
  exact (readSource_readOnly h1).kept.trans .regs

theorem sbc_kept {src : Source} {s t : State} (h : sbc src s = .ok t) : Kept s t := by
  simp only [sbc, bind_eq_ok, Prod.exists] at h
  obtain ⟨_, _, h1, h2⟩ := h
  cases h2
  exact (readSource_readOnly h1).kept.trans .regs

theorem cmp_kept {src : Source} {s t : State} (h : cmp src s = .ok t) : Kept s t := by
  simp only [cmp, bind_eq_ok, Prod.exists] at h
  obtain ⟨_, _, h1, h2⟩ := h
  cases h2
  exact (readSource_readOnly h1).kept.trans .regs

theorem cpx_kept {src : Source} {s t : State} (h : cpx src s = .ok t) : Kept s t := by
  simp only [cpx, bind_eq_ok, Prod.exists] at h
  obtain ⟨_, _, h1, h2⟩ := h
  cases h2
  exact (readSource_readOnly h1).kept.trans .regs

theorem cpy_kept {src : Source} {s t : State} (h : cpy src s = .ok t) : Kept s t := by
  simp only [cpy, bind_eq_ok, Prod.exists] at h
  obtain ⟨_, _, h1, h2⟩ := h
  cases h2
  exact (readSource_readOnly h1).kept.trans .regs

theorem bitOp_kept {src : Source} {s t : State} (h : bitOp src s = .ok t) : Kept s t := by
  simp only [bitOp, bind_eq_ok, Prod.exists] at h
  obtain ⟨_, _, h1, h2⟩ := h
  cases h2
  exact (readSource_readOnly h1).kept.trans .regs

theorem logic_kept {f : Byte → Byte → Byte} {src : Source} {s t : State} (h : logic f src s = .ok t) : Kept s t := by
  simp only [logic, bind_eq_ok, Prod.exists] at h
  obtain ⟨_, _, h1, h2⟩ := h
  cases h2
  exact (readSource_readOnly h1).kept.trans .regs

theorem store_kept {m : LocMode} {v : Byte} {s t : State} (h : store m v s = .ok t) : Kept s t := by
  simp only [store, bind_eq_ok, Prod.exists] at h
  obtain ⟨_, _, h1, h2⟩ := h
  exact (resolve_readOnly h1).kept.trans (writeLoc_kept h2)

theorem shift_kept {f : Byte → Bool → Shifted} {m : LocMode} {s t : State} (h : shift f m s = .ok t) : Kept s t := by
  simp only [shift, bind_eq_ok, Prod.exists] at h
  obtain ⟨_, _, h1, _, _, h2, _, h3, h4⟩ := h
  cases h4
  exact (resolve_readOnly h1).kept.trans <| (readLoc_readOnly h2).kept.trans <| (writeLoc_kept h3).trans .regs

theorem bump_kept {f : Byte → Byte} {m : LocMode} {s t : State} (h : bump f m s = .ok t) : Kept s t := by
  simp only [bump, bind_eq_ok, Prod.exists] at h
  obtain ⟨_, _, h1, _, _, h2, _, h3, h4⟩ := h
  cases h4
  exact (resolve_readOnly h1).kept.trans <| (readLoc_readOnly h2).kept.trans <| (writeLoc_kept h3).trans .regs

theorem branch_kept (c : Bool) (off : Byte) (s : State) : Kept s (branch c off s) := by
  cases c
  · exact .refl s
  · exact .regs

theorem jumpIndirect_kept {p : Addr} {s t : State} (h : jumpIndirect p s = .ok t) : Kept s t := by
  simp only [jumpIndirect, bind_eq_ok, Prod.exists] at h
  obtain ⟨_, _, h1, h2⟩ := h
  cases h2
  exact (indirectTarget_readOnly h1).kept.trans .regs

theorem callTo_kept {a : Addr} {s t : State} (h : callTo a s = .ok t) : Kept s t := by
  simp only [callTo, bind_eq_ok] at h
  obtain ⟨_, h1, h2⟩ := h
  cases h2
  exact (pushWord_kept h1).trans .regs

theorem returnFromCall_kept {s t : State} (h : returnFromCall s = .ok t) : Kept s t := by
  simp only [returnFromCall, bind_eq_ok, Prod.exists] at h
  obtain ⟨_, _, h1, h2⟩ := h
  cases h2
  exact (pullWord_kept h1).trans .regs

theorem pullA_kept {s t : State} (h : pullA s = .ok t) : Kept s t := by
  simp only [pullA, bind_eq_ok, Prod.exists] at h
  obtain ⟨_, _, h1, h2⟩ := h
  cases h2
  exact (pull_kept h1).trans .regs

theorem pullP_kept {s t : State} (h : pullP s = .ok t) : Kept s t := by
  simp only [pullP, bind_eq_ok, Prod.exists] at h
  obtain ⟨_, _, h1, h2⟩ := h
  cases h2
  exact (pull_kept h1).trans .regs

/-- When an instruction answers a next state, the parameters, RunState and the draws are as before, the tables keep their
canonical form, and the backend that is not installed is untouched. -/
theorem exec_kept {i : Instr} {s t : State} (h : exec i s = .next t) : Kept s t := by
  cases i with
  | ldaImm => exact lda_kept (src := .immediate _) (finish_eq_next.mp h)
  | ldaZp | ldaZpX | ldaAbs | ldaAbsX | ldaAbsY | ldaIndX | ldaIndY => exact lda_kept (finish_eq_next.mp h)
  | ldxImm => exact ldx_kept (src := .immediate _) (finish_eq_next.mp h)
  | ldxZp | ldxZpY | ldxAbs | ldxAbsY => exact ldx_kept (finish_eq_next.mp h)
  | ldyImm => exact ldy_kept (src := .immediate _) (finish_eq_next.mp h)
  | ldyZp | ldyZpX | ldyAbs | ldyAbsX => exact ldy_kept (finish_eq_next.mp h)
  | staZp | staZpX | staAbs | staAbsX | staAbsY | staIndX | staIndY | stxZp | stxZpY | stxAbs | styZp
  | styZpX | styAbs => exact store_kept (finish_eq_next.mp h)
  | adcImm => exact adc_kept (src := .immediate _) (finish_eq_next.mp h)
  | adcZp | adcZpX | adcAbs | adcAbsX | adcAbsY | adcIndX | adcIndY => exact adc_kept (finish_eq_next.mp h)
  | sbcImm => exact sbc_kept (src := .immediate _) (finish_eq_next.mp h)
  | sbcZp | sbcZpX | sbcAbs | sbcAbsX | sbcAbsY | sbcIndX | sbcIndY => exact sbc_kept (finish_eq_next.mp h)
  | andImm | oraImm | eorImm => exact logic_kept (src := .immediate _) (finish_eq_next.mp h)
  | andZp | andZpX | andAbs | andAbsX | andAbsY | andIndX | andIndY | oraZp | oraZpX | oraAbs | oraAbsX
  | oraAbsY | oraIndX | oraIndY | eorZp | eorZpX | eorAbs | eorAbsX | eorAbsY | eorIndX | eorIndY => exact logic_kept (finish_eq_next.mp h)
  | cmpImm => exact cmp_kept (src := .immediate _) (finish_eq_next.mp h)
  | cmpZp | cmpZpX | cmpAbs | cmpAbsX | cmpAbsY | cmpIndX | cmpIndY => exact cmp_kept (finish_eq_next.mp h)
  | cpxImm => exact cpx_kept (src := .immediate _) (finish_eq_next.mp h)
  | cpxZp | cpxAbs => exact cpx_kept (finish_eq_next.mp h)
  | cpyImm => exact cpy_kept (src := .immediate _) (finish_eq_next.mp h)
  | cpyZp | cpyAbs => exact cpy_kept (finish_eq_next.mp h)
  | bitZp | bitAbs => exact bitOp_kept (finish_eq_next.mp h)
  | aslA | lsrA | rolA | rorA => exact shift_kept (m := .accumulator) (finish_eq_next.mp h)
  | aslZp | aslZpX | aslAbs | aslAbsX | lsrZp | lsrZpX | lsrAbs | lsrAbsX | rolZp | rolZpX | rolAbs | rolAbsX
  | rorZp | rorZpX | rorAbs | rorAbsX => exact shift_kept (finish_eq_next.mp h)
  | incZp | incZpX | incAbs | incAbsX | decZp | decZpX | decAbs | decAbsX => exact bump_kept (finish_eq_next.mp h)
  | bcc | bcs | beq | bne | bmi | bpl | bvc | bvs =>
    cases h
    exact branch_kept _ _ s
  | jmpInd => exact jumpIndirect_kept (finish_eq_next.mp h)
  | jsr => exact callTo_kept (finish_eq_next.mp h)
  | rts => exact returnFromCall_kept (finish_eq_next.mp h)
  | rti => exact returnFromBreak_kept (finish_eq_next.mp h)
  | brk => exact takeBreak_kept (finish_eq_next.mp h)
  | pha | php => exact push_kept (finish_eq_next.mp h)
  | pla => exact pullA_kept (finish_eq_next.mp h)
  | plp => exact pullP_kept (finish_eq_next.mp h)
  | nop =>
    cases h
    exact .refl s
  | unimplemented op => cases h
  | jmpAbs | tax | tay | txa | tya | tsx | txs | clc | sec | cli | sei | cld | sed | clv | inx | iny | dex
  | dey =>
    cases h
    exact .regs

end Sys2Proof.Machine
end

