-- ==== Sys2Proof/Laws/Mnemonic.lean ====
section
/-!
SUPPORT. The mnemonic of each constructor, and the mode of the shifts and rotates, so that no proof searches the opcode
map.
-/

namespace Sys2Proof

@[simp] theorem mnemonicOf_ldaImm (imm : Byte) : mnemonicOf (.ldaImm imm) = "LDA" := rfl
@[simp] theorem mnemonicOf_ldaZp (zp : Byte) : mnemonicOf (.ldaZp zp) = "LDA" := rfl
@[simp] theorem mnemonicOf_ldaZpX (zp : Byte) : mnemonicOf (.ldaZpX zp) = "LDA" := rfl
@[simp] theorem mnemonicOf_ldaAbs (addr : Addr) : mnemonicOf (.ldaAbs addr) = "LDA" := rfl
@[simp] theorem mnemonicOf_ldaAbsX (addr : Addr) : mnemonicOf (.ldaAbsX addr) = "LDA" := rfl
@[simp] theorem mnemonicOf_ldaAbsY (addr : Addr) : mnemonicOf (.ldaAbsY addr) = "LDA" := rfl
@[simp] theorem mnemonicOf_ldaIndX (zp : Byte) : mnemonicOf (.ldaIndX zp) = "LDA" := rfl
@[simp] theorem mnemonicOf_ldaIndY (zp : Byte) : mnemonicOf (.ldaIndY zp) = "LDA" := rfl
@[simp] theorem mnemonicOf_ldxImm (imm : Byte) : mnemonicOf (.ldxImm imm) = "LDX" := rfl
@[simp] theorem mnemonicOf_ldxZp (zp : Byte) : mnemonicOf (.ldxZp zp) = "LDX" := rfl
@[simp] theorem mnemonicOf_ldxZpY (zp : Byte) : mnemonicOf (.ldxZpY zp) = "LDX" := rfl
@[simp] theorem mnemonicOf_ldxAbs (addr : Addr) : mnemonicOf (.ldxAbs addr) = "LDX" := rfl
@[simp] theorem mnemonicOf_ldxAbsY (addr : Addr) : mnemonicOf (.ldxAbsY addr) = "LDX" := rfl
@[simp] theorem mnemonicOf_ldyImm (imm : Byte) : mnemonicOf (.ldyImm imm) = "LDY" := rfl
@[simp] theorem mnemonicOf_ldyZp (zp : Byte) : mnemonicOf (.ldyZp zp) = "LDY" := rfl
@[simp] theorem mnemonicOf_ldyZpX (zp : Byte) : mnemonicOf (.ldyZpX zp) = "LDY" := rfl
@[simp] theorem mnemonicOf_ldyAbs (addr : Addr) : mnemonicOf (.ldyAbs addr) = "LDY" := rfl
@[simp] theorem mnemonicOf_ldyAbsX (addr : Addr) : mnemonicOf (.ldyAbsX addr) = "LDY" := rfl
@[simp] theorem mnemonicOf_staZp (zp : Byte) : mnemonicOf (.staZp zp) = "STA" := rfl
@[simp] theorem mnemonicOf_staZpX (zp : Byte) : mnemonicOf (.staZpX zp) = "STA" := rfl
@[simp] theorem mnemonicOf_staAbs (addr : Addr) : mnemonicOf (.staAbs addr) = "STA" := rfl
@[simp] theorem mnemonicOf_staAbsX (addr : Addr) : mnemonicOf (.staAbsX addr) = "STA" := rfl
@[simp] theorem mnemonicOf_staAbsY (addr : Addr) : mnemonicOf (.staAbsY addr) = "STA" := rfl
@[simp] theorem mnemonicOf_staIndX (zp : Byte) : mnemonicOf (.staIndX zp) = "STA" := rfl
@[simp] theorem mnemonicOf_staIndY (zp : Byte) : mnemonicOf (.staIndY zp) = "STA" := rfl
@[simp] theorem mnemonicOf_stxZp (zp : Byte) : mnemonicOf (.stxZp zp) = "STX" := rfl
@[simp] theorem mnemonicOf_stxZpY (zp : Byte) : mnemonicOf (.stxZpY zp) = "STX" := rfl
@[simp] theorem mnemonicOf_stxAbs (addr : Addr) : mnemonicOf (.stxAbs addr) = "STX" := rfl
@[simp] theorem mnemonicOf_styZp (zp : Byte) : mnemonicOf (.styZp zp) = "STY" := rfl
@[simp] theorem mnemonicOf_styZpX (zp : Byte) : mnemonicOf (.styZpX zp) = "STY" := rfl
@[simp] theorem mnemonicOf_styAbs (addr : Addr) : mnemonicOf (.styAbs addr) = "STY" := rfl
@[simp] theorem mnemonicOf_adcImm (imm : Byte) : mnemonicOf (.adcImm imm) = "ADC" := rfl
@[simp] theorem mnemonicOf_adcZp (zp : Byte) : mnemonicOf (.adcZp zp) = "ADC" := rfl
@[simp] theorem mnemonicOf_adcZpX (zp : Byte) : mnemonicOf (.adcZpX zp) = "ADC" := rfl
@[simp] theorem mnemonicOf_adcAbs (addr : Addr) : mnemonicOf (.adcAbs addr) = "ADC" := rfl
@[simp] theorem mnemonicOf_adcAbsX (addr : Addr) : mnemonicOf (.adcAbsX addr) = "ADC" := rfl
@[simp] theorem mnemonicOf_adcAbsY (addr : Addr) : mnemonicOf (.adcAbsY addr) = "ADC" := rfl
@[simp] theorem mnemonicOf_adcIndX (zp : Byte) : mnemonicOf (.adcIndX zp) = "ADC" := rfl
@[simp] theorem mnemonicOf_adcIndY (zp : Byte) : mnemonicOf (.adcIndY zp) = "ADC" := rfl
@[simp] theorem mnemonicOf_sbcImm (imm : Byte) : mnemonicOf (.sbcImm imm) = "SBC" := rfl
@[simp] theorem mnemonicOf_sbcZp (zp : Byte) : mnemonicOf (.sbcZp zp) = "SBC" := rfl
@[simp] theorem mnemonicOf_sbcZpX (zp : Byte) : mnemonicOf (.sbcZpX zp) = "SBC" := rfl
@[simp] theorem mnemonicOf_sbcAbs (addr : Addr) : mnemonicOf (.sbcAbs addr) = "SBC" := rfl
@[simp] theorem mnemonicOf_sbcAbsX (addr : Addr) : mnemonicOf (.sbcAbsX addr) = "SBC" := rfl
@[simp] theorem mnemonicOf_sbcAbsY (addr : Addr) : mnemonicOf (.sbcAbsY addr) = "SBC" := rfl
@[simp] theorem mnemonicOf_sbcIndX (zp : Byte) : mnemonicOf (.sbcIndX zp) = "SBC" := rfl
@[simp] theorem mnemonicOf_sbcIndY (zp : Byte) : mnemonicOf (.sbcIndY zp) = "SBC" := rfl
@[simp] theorem mnemonicOf_andImm (imm : Byte) : mnemonicOf (.andImm imm) = "AND" := rfl
@[simp] theorem mnemonicOf_andZp (zp : Byte) : mnemonicOf (.andZp zp) = "AND" := rfl
@[simp] theorem mnemonicOf_andZpX (zp : Byte) : mnemonicOf (.andZpX zp) = "AND" := rfl
@[simp] theorem mnemonicOf_andAbs (addr : Addr) : mnemonicOf (.andAbs addr) = "AND" := rfl
@[simp] theorem mnemonicOf_andAbsX (addr : Addr) : mnemonicOf (.andAbsX addr) = "AND" := rfl
@[simp] theorem mnemonicOf_andAbsY (addr : Addr) : mnemonicOf (.andAbsY addr) = "AND" := rfl
@[simp] theorem mnemonicOf_andIndX (zp : Byte) : mnemonicOf (.andIndX zp) = "AND" := rfl
@[simp] theorem mnemonicOf_andIndY (zp : Byte) : mnemonicOf (.andIndY zp) = "AND" := rfl
@[simp] theorem mnemonicOf_oraImm (imm : Byte) : mnemonicOf (.oraImm imm) = "ORA" := rfl
@[simp] theorem mnemonicOf_oraZp (zp : Byte) : mnemonicOf (.oraZp zp) = "ORA" := rfl
@[simp] theorem mnemonicOf_oraZpX (zp : Byte) : mnemonicOf (.oraZpX zp) = "ORA" := rfl
@[simp] theorem mnemonicOf_oraAbs (addr : Addr) : mnemonicOf (.oraAbs addr) = "ORA" := rfl
@[simp] theorem mnemonicOf_oraAbsX (addr : Addr) : mnemonicOf (.oraAbsX addr) = "ORA" := rfl
@[simp] theorem mnemonicOf_oraAbsY (addr : Addr) : mnemonicOf (.oraAbsY addr) = "ORA" := rfl
@[simp] theorem mnemonicOf_oraIndX (zp : Byte) : mnemonicOf (.oraIndX zp) = "ORA" := rfl
@[simp] theorem mnemonicOf_oraIndY (zp : Byte) : mnemonicOf (.oraIndY zp) = "ORA" := rfl
@[simp] theorem mnemonicOf_eorImm (imm : Byte) : mnemonicOf (.eorImm imm) = "EOR" := rfl
@[simp] theorem mnemonicOf_eorZp (zp : Byte) : mnemonicOf (.eorZp zp) = "EOR" := rfl
@[simp] theorem mnemonicOf_eorZpX (zp : Byte) : mnemonicOf (.eorZpX zp) = "EOR" := rfl
@[simp] theorem mnemonicOf_eorAbs (addr : Addr) : mnemonicOf (.eorAbs addr) = "EOR" := rfl
@[simp] theorem mnemonicOf_eorAbsX (addr : Addr) : mnemonicOf (.eorAbsX addr) = "EOR" := rfl
@[simp] theorem mnemonicOf_eorAbsY (addr : Addr) : mnemonicOf (.eorAbsY addr) = "EOR" := rfl
@[simp] theorem mnemonicOf_eorIndX (zp : Byte) : mnemonicOf (.eorIndX zp) = "EOR" := rfl
@[simp] theorem mnemonicOf_eorIndY (zp : Byte) : mnemonicOf (.eorIndY zp) = "EOR" := rfl
@[simp] theorem mnemonicOf_cmpImm (imm : Byte) : mnemonicOf (.cmpImm imm) = "CMP" := rfl
@[simp] theorem mnemonicOf_cmpZp (zp : Byte) : mnemonicOf (.cmpZp zp) = "CMP" := rfl
@[simp] theorem mnemonicOf_cmpZpX (zp : Byte) : mnemonicOf (.cmpZpX zp) = "CMP" := rfl
@[simp] theorem mnemonicOf_cmpAbs (addr : Addr) : mnemonicOf (.cmpAbs addr) = "CMP" := rfl
@[simp] theorem mnemonicOf_cmpAbsX (addr : Addr) : mnemonicOf (.cmpAbsX addr) = "CMP" := rfl
@[simp] theorem mnemonicOf_cmpAbsY (addr : Addr) : mnemonicOf (.cmpAbsY addr) = "CMP" := rfl
@[simp] theorem mnemonicOf_cmpIndX (zp : Byte) : mnemonicOf (.cmpIndX zp) = "CMP" := rfl
@[simp] theorem mnemonicOf_cmpIndY (zp : Byte) : mnemonicOf (.cmpIndY zp) = "CMP" := rfl
@[simp] theorem mnemonicOf_cpxImm (imm : Byte) : mnemonicOf (.cpxImm imm) = "CPX" := rfl
@[simp] theorem mnemonicOf_cpxZp (zp : Byte) : mnemonicOf (.cpxZp zp) = "CPX" := rfl
@[simp] theorem mnemonicOf_cpxAbs (addr : Addr) : mnemonicOf (.cpxAbs addr) = "CPX" := rfl
@[simp] theorem mnemonicOf_cpyImm (imm : Byte) : mnemonicOf (.cpyImm imm) = "CPY" := rfl
@[simp] theorem mnemonicOf_cpyZp (zp : Byte) : mnemonicOf (.cpyZp zp) = "CPY" := rfl
@[simp] theorem mnemonicOf_cpyAbs (addr : Addr) : mnemonicOf (.cpyAbs addr) = "CPY" := rfl
@[simp] theorem mnemonicOf_bitZp (zp : Byte) : mnemonicOf (.bitZp zp) = "BIT" := rfl
@[simp] theorem mnemonicOf_bitAbs (addr : Addr) : mnemonicOf (.bitAbs addr) = "BIT" := rfl
@[simp] theorem mnemonicOf_aslA : mnemonicOf .aslA = "ASL" := rfl
@[simp] theorem mnemonicOf_aslZp (zp : Byte) : mnemonicOf (.aslZp zp) = "ASL" := rfl
@[simp] theorem mnemonicOf_aslZpX (zp : Byte) : mnemonicOf (.aslZpX zp) = "ASL" := rfl
@[simp] theorem mnemonicOf_aslAbs (addr : Addr) : mnemonicOf (.aslAbs addr) = "ASL" := rfl
@[simp] theorem mnemonicOf_aslAbsX (addr : Addr) : mnemonicOf (.aslAbsX addr) = "ASL" := rfl
@[simp] theorem mnemonicOf_lsrA : mnemonicOf .lsrA = "LSR" := rfl
@[simp] theorem mnemonicOf_lsrZp (zp : Byte) : mnemonicOf (.lsrZp zp) = "LSR" := rfl
@[simp] theorem mnemonicOf_lsrZpX (zp : Byte) : mnemonicOf (.lsrZpX zp) = "LSR" := rfl
@[simp] theorem mnemonicOf_lsrAbs (addr : Addr) : mnemonicOf (.lsrAbs addr) = "LSR" := rfl
@[simp] theorem mnemonicOf_lsrAbsX (addr : Addr) : mnemonicOf (.lsrAbsX addr) = "LSR" := rfl
@[simp] theorem mnemonicOf_rolA : mnemonicOf .rolA = "ROL" := rfl
@[simp] theorem mnemonicOf_rolZp (zp : Byte) : mnemonicOf (.rolZp zp) = "ROL" := rfl
@[simp] theorem mnemonicOf_rolZpX (zp : Byte) : mnemonicOf (.rolZpX zp) = "ROL" := rfl
@[simp] theorem mnemonicOf_rolAbs (addr : Addr) : mnemonicOf (.rolAbs addr) = "ROL" := rfl
@[simp] theorem mnemonicOf_rolAbsX (addr : Addr) : mnemonicOf (.rolAbsX addr) = "ROL" := rfl
@[simp] theorem mnemonicOf_rorA : mnemonicOf .rorA = "ROR" := rfl
@[simp] theorem mnemonicOf_rorZp (zp : Byte) : mnemonicOf (.rorZp zp) = "ROR" := rfl
@[simp] theorem mnemonicOf_rorZpX (zp : Byte) : mnemonicOf (.rorZpX zp) = "ROR" := rfl
@[simp] theorem mnemonicOf_rorAbs (addr : Addr) : mnemonicOf (.rorAbs addr) = "ROR" := rfl
@[simp] theorem mnemonicOf_rorAbsX (addr : Addr) : mnemonicOf (.rorAbsX addr) = "ROR" := rfl
@[simp] theorem mnemonicOf_incZp (zp : Byte) : mnemonicOf (.incZp zp) = "INC" := rfl
@[simp] theorem mnemonicOf_incZpX (zp : Byte) : mnemonicOf (.incZpX zp) = "INC" := rfl
@[simp] theorem mnemonicOf_incAbs (addr : Addr) : mnemonicOf (.incAbs addr) = "INC" := rfl
@[simp] theorem mnemonicOf_incAbsX (addr : Addr) : mnemonicOf (.incAbsX addr) = "INC" := rfl
@[simp] theorem mnemonicOf_decZp (zp : Byte) : mnemonicOf (.decZp zp) = "DEC" := rfl
@[simp] theorem mnemonicOf_decZpX (zp : Byte) : mnemonicOf (.decZpX zp) = "DEC" := rfl
@[simp] theorem mnemonicOf_decAbs (addr : Addr) : mnemonicOf (.decAbs addr) = "DEC" := rfl
@[simp] theorem mnemonicOf_decAbsX (addr : Addr) : mnemonicOf (.decAbsX addr) = "DEC" := rfl
@[simp] theorem mnemonicOf_bcc (off : Byte) : mnemonicOf (.bcc off) = "BCC" := rfl
@[simp] theorem mnemonicOf_bcs (off : Byte) : mnemonicOf (.bcs off) = "BCS" := rfl
@[simp] theorem mnemonicOf_beq (off : Byte) : mnemonicOf (.beq off) = "BEQ" := rfl
@[simp] theorem mnemonicOf_bne (off : Byte) : mnemonicOf (.bne off) = "BNE" := rfl
@[simp] theorem mnemonicOf_bmi (off : Byte) : mnemonicOf (.bmi off) = "BMI" := rfl
@[simp] theorem mnemonicOf_bpl (off : Byte) : mnemonicOf (.bpl off) = "BPL" := rfl
@[simp] theorem mnemonicOf_bvc (off : Byte) : mnemonicOf (.bvc off) = "BVC" := rfl
@[simp] theorem mnemonicOf_bvs (off : Byte) : mnemonicOf (.bvs off) = "BVS" := rfl
@[simp] theorem mnemonicOf_jmpAbs (addr : Addr) : mnemonicOf (.jmpAbs addr) = "JMP" := rfl
@[simp] theorem mnemonicOf_jmpInd (ptr : Addr) : mnemonicOf (.jmpInd ptr) = "JMP" := rfl
@[simp] theorem mnemonicOf_jsr (addr : Addr) : mnemonicOf (.jsr addr) = "JSR" := rfl
@[simp] theorem mnemonicOf_rts : mnemonicOf .rts = "RTS" := rfl
@[simp] theorem mnemonicOf_rti : mnemonicOf .rti = "RTI" := rfl
@[simp] theorem mnemonicOf_brk : mnemonicOf .brk = "BRK" := rfl
@[simp] theorem mnemonicOf_tax : mnemonicOf .tax = "TAX" := rfl
@[simp] theorem mnemonicOf_tay : mnemonicOf .tay = "TAY" := rfl
@[simp] theorem mnemonicOf_txa : mnemonicOf .txa = "TXA" := rfl
@[simp] theorem mnemonicOf_tya : mnemonicOf .tya = "TYA" := rfl
@[simp] theorem mnemonicOf_tsx : mnemonicOf .tsx = "TSX" := rfl
@[simp] theorem mnemonicOf_txs : mnemonicOf .txs = "TXS" := rfl
@[simp] theorem mnemonicOf_pha : mnemonicOf .pha = "PHA" := rfl
@[simp] theorem mnemonicOf_php : mnemonicOf .php = "PHP" := rfl
@[simp] theorem mnemonicOf_pla : mnemonicOf .pla = "PLA" := rfl
@[simp] theorem mnemonicOf_plp : mnemonicOf .plp = "PLP" := rfl
@[simp] theorem mnemonicOf_clc : mnemonicOf .clc = "CLC" := rfl
@[simp] theorem mnemonicOf_sec : mnemonicOf .sec = "SEC" := rfl
@[simp] theorem mnemonicOf_cli : mnemonicOf .cli = "CLI" := rfl
@[simp] theorem mnemonicOf_sei : mnemonicOf .sei = "SEI" := rfl
@[simp] theorem mnemonicOf_cld : mnemonicOf .cld = "CLD" := rfl
@[simp] theorem mnemonicOf_sed : mnemonicOf .sed = "SED" := rfl
@[simp] theorem mnemonicOf_clv : mnemonicOf .clv = "CLV" := rfl
@[simp] theorem mnemonicOf_inx : mnemonicOf .inx = "INX" := rfl
@[simp] theorem mnemonicOf_iny : mnemonicOf .iny = "INY" := rfl
@[simp] theorem mnemonicOf_dex : mnemonicOf .dex = "DEX" := rfl
@[simp] theorem mnemonicOf_dey : mnemonicOf .dey = "DEY" := rfl
@[simp] theorem mnemonicOf_nop : mnemonicOf .nop = "NOP" := rfl

@[simp] theorem modeOf_aslA : modeOf .aslA = some .accumulator := rfl
@[simp] theorem modeOf_aslZp (zp : Byte) : modeOf (.aslZp zp) = some .zeroPage := rfl
@[simp] theorem modeOf_aslZpX (zp : Byte) : modeOf (.aslZpX zp) = some .zeroPageX := rfl
@[simp] theorem modeOf_aslAbs (addr : Addr) : modeOf (.aslAbs addr) = some .absolute := rfl
@[simp] theorem modeOf_aslAbsX (addr : Addr) : modeOf (.aslAbsX addr) = some .absoluteX := rfl
@[simp] theorem modeOf_lsrA : modeOf .lsrA = some .accumulator := rfl
@[simp] theorem modeOf_lsrZp (zp : Byte) : modeOf (.lsrZp zp) = some .zeroPage := rfl
@[simp] theorem modeOf_lsrZpX (zp : Byte) : modeOf (.lsrZpX zp) = some .zeroPageX := rfl
@[simp] theorem modeOf_lsrAbs (addr : Addr) : modeOf (.lsrAbs addr) = some .absolute := rfl
@[simp] theorem modeOf_lsrAbsX (addr : Addr) : modeOf (.lsrAbsX addr) = some .absoluteX := rfl
@[simp] theorem modeOf_rolA : modeOf .rolA = some .accumulator := rfl
@[simp] theorem modeOf_rolZp (zp : Byte) : modeOf (.rolZp zp) = some .zeroPage := rfl
@[simp] theorem modeOf_rolZpX (zp : Byte) : modeOf (.rolZpX zp) = some .zeroPageX := rfl
@[simp] theorem modeOf_rolAbs (addr : Addr) : modeOf (.rolAbs addr) = some .absolute := rfl
@[simp] theorem modeOf_rolAbsX (addr : Addr) : modeOf (.rolAbsX addr) = some .absoluteX := rfl
@[simp] theorem modeOf_rorA : modeOf .rorA = some .accumulator := rfl
@[simp] theorem modeOf_rorZp (zp : Byte) : modeOf (.rorZp zp) = some .zeroPage := rfl
@[simp] theorem modeOf_rorZpX (zp : Byte) : modeOf (.rorZpX zp) = some .zeroPageX := rfl
@[simp] theorem modeOf_rorAbs (addr : Addr) : modeOf (.rorAbs addr) = some .absolute := rfl
@[simp] theorem modeOf_rorAbsX (addr : Addr) : modeOf (.rorAbsX addr) = some .absoluteX := rfl

end Sys2Proof
end

