-- ==== Sys2Proof/Laws/State.lean ====
section
/-!
SUPPORT. The small lemmas of the state: one a field and update, each true by rfl. An update of State itself is a record
update, whose fields the simplifier reads off; the named updates are those of the status, of the fresh state, of the
branch, of a state after a fault, and of an oracle test's launch.
-/

namespace Sys2Proof.Machine

variable (p : Status) (b m : Byte) (t : Sum) (u : Shifted)

@[simp] theorem Status.setZN_n : (p.setZN b).n = b.getLsbD 7 := rfl
@[simp] theorem Status.setZN_v : (p.setZN b).v = p.v := rfl
@[simp] theorem Status.setZN_d : (p.setZN b).d = p.d := rfl
@[simp] theorem Status.setZN_i : (p.setZN b).i = p.i := rfl
@[simp] theorem Status.setZN_z : (p.setZN b).z = (b == 0) := rfl
@[simp] theorem Status.setZN_c : (p.setZN b).c = p.c := rfl

@[simp] theorem Status.setSum_n : (p.setSum t).n = t.r.getLsbD 7 := rfl
@[simp] theorem Status.setSum_v : (p.setSum t).v = t.v := rfl
@[simp] theorem Status.setSum_d : (p.setSum t).d = p.d := rfl
@[simp] theorem Status.setSum_i : (p.setSum t).i = p.i := rfl
@[simp] theorem Status.setSum_z : (p.setSum t).z = (t.r == 0) := rfl
@[simp] theorem Status.setSum_c : (p.setSum t).c = t.c := rfl

@[simp] theorem Status.compare_n : (p.compare b m).n = (b - m).getLsbD 7 := rfl
@[simp] theorem Status.compare_v : (p.compare b m).v = p.v := rfl
@[simp] theorem Status.compare_d : (p.compare b m).d = p.d := rfl
@[simp] theorem Status.compare_i : (p.compare b m).i = p.i := rfl
@[simp] theorem Status.compare_z : (p.compare b m).z = (b - m == 0) := rfl
@[simp] theorem Status.compare_c : (p.compare b m).c = decide (m.toNat ≤ b.toNat) := rfl

@[simp] theorem Status.bitTest_n : (p.bitTest b m).n = m.getLsbD 7 := rfl
@[simp] theorem Status.bitTest_v : (p.bitTest b m).v = m.getLsbD 6 := rfl
@[simp] theorem Status.bitTest_d : (p.bitTest b m).d = p.d := rfl
@[simp] theorem Status.bitTest_i : (p.bitTest b m).i = p.i := rfl
@[simp] theorem Status.bitTest_z : (p.bitTest b m).z = ((b &&& m) == 0) := rfl
@[simp] theorem Status.bitTest_c : (p.bitTest b m).c = p.c := rfl

@[simp] theorem Status.setShift_n : (p.setShift u).n = u.r.getLsbD 7 := rfl
@[simp] theorem Status.setShift_v : (p.setShift u).v = p.v := rfl
@[simp] theorem Status.setShift_d : (p.setShift u).d = p.d := rfl
@[simp] theorem Status.setShift_i : (p.setShift u).i = p.i := rfl
@[simp] theorem Status.setShift_z : (p.setShift u).z = (u.r == 0) := rfl
@[simp] theorem Status.setShift_c : (p.setShift u).c = u.c := rfl

@[simp] theorem Status.ofByte_n : (Status.ofByte b).n = b.getLsbD 7 := rfl
@[simp] theorem Status.ofByte_v : (Status.ofByte b).v = b.getLsbD 6 := rfl
@[simp] theorem Status.ofByte_d : (Status.ofByte b).d = b.getLsbD 3 := rfl
@[simp] theorem Status.ofByte_i : (Status.ofByte b).i = b.getLsbD 2 := rfl
@[simp] theorem Status.ofByte_z : (Status.ofByte b).z = b.getLsbD 1 := rfl
@[simp] theorem Status.ofByte_c : (Status.ofByte b).c = b.getLsbD 0 := rfl

variable (pr : Params) (img : Memory) (s : State)

@[simp] theorem State.fresh_a : (State.fresh pr img).a = pr.resetRegs.a := rfl
@[simp] theorem State.fresh_x : (State.fresh pr img).x = pr.resetRegs.x := rfl
@[simp] theorem State.fresh_y : (State.fresh pr img).y = pr.resetRegs.y := rfl
@[simp] theorem State.fresh_sp : (State.fresh pr img).sp = pr.resetRegs.sp := rfl
@[simp] theorem State.fresh_p : (State.fresh pr img).p = Status.ofByte pr.resetRegs.p := rfl
@[simp] theorem State.fresh_run : (State.fresh pr img).run = .running := rfl
@[simp] theorem State.fresh_mem : (State.fresh pr img).mem = img := rfl
@[simp] theorem State.fresh_oracle : (State.fresh pr img).oracle = Oracle.empty := rfl
@[simp] theorem State.fresh_params : (State.fresh pr img).params = pr := rfl

@[simp] theorem drawRegisters_run : (drawRegisters s).run = s.run := rfl
@[simp] theorem drawRegisters_mem : (drawRegisters s).mem = s.mem := rfl
@[simp] theorem drawRegisters_oracle : (drawRegisters s).oracle = s.oracle := rfl
@[simp] theorem drawRegisters_params : (drawRegisters s).params = s.params := rfl
@[simp] theorem drawRegisters_draws : (drawRegisters s).draws = s.draws + 1 := rfl

variable (f : Fault)

@[simp] theorem registersAfterFault_mem : (registersAfterFault f s).mem = s.mem := by cases f <;> rfl
@[simp] theorem registersAfterFault_oracle : (registersAfterFault f s).oracle = s.oracle := by cases f <;> rfl
@[simp] theorem registersAfterFault_params : (registersAfterFault f s).params = s.params := by cases f <;> rfl

@[simp] theorem discardOracle_mem : (discardOracle s).mem = s.mem := by unfold discardOracle; split <;> rfl
@[simp] theorem discardOracle_params : (discardOracle s).params = s.params := by unfold discardOracle; split <;> rfl

@[simp] theorem afterFault_run : (afterFault f s).run = .faulted f := rfl
@[simp] theorem afterFault_mem : (afterFault f s).mem = s.mem := by simp [afterFault]
@[simp] theorem afterFault_params : (afterFault f s).params = s.params := by simp [afterFault]

variable (reads writes : List (Addr × Byte))

@[simp] theorem verificationLaunch_a : (verificationLaunch s reads writes).a = s.a := rfl
@[simp] theorem verificationLaunch_x : (verificationLaunch s reads writes).x = s.x := rfl
@[simp] theorem verificationLaunch_y : (verificationLaunch s reads writes).y = s.y := rfl
@[simp] theorem verificationLaunch_sp : (verificationLaunch s reads writes).sp = s.sp := rfl
@[simp] theorem verificationLaunch_pc : (verificationLaunch s reads writes).pc = s.pc := rfl
@[simp] theorem verificationLaunch_p : (verificationLaunch s reads writes).p = s.p := rfl
@[simp] theorem verificationLaunch_run : (verificationLaunch s reads writes).run = .running := rfl
@[simp] theorem verificationLaunch_mem : (verificationLaunch s reads writes).mem = s.mem := rfl
@[simp] theorem verificationLaunch_backend : (verificationLaunch s reads writes).params.backend = .oracle := rfl

end Sys2Proof.Machine
end

