-- ==== Sys2Proof/Laws/Step.lean ====
section
/-!
SUPPORT. What a step can have done: `step_next` for a step that answers a next state, `endInstruction_ok` for the end of an
instruction, and the step under the flat backend.
-/

namespace Sys2Proof.Machine

/-- Under the flat backend the end of a step adds nothing to the instruction's answer. -/
theorem endStep_exec_flat (i : Instr) (t : State) (h : t.params.backend = .flat) : endStep (exec i t) = exec i t := by
  cases he : exec i t with
  | next u => simp [endStep, endInstruction_flat (show u.params.backend = .flat by rw [(exec_kept he).params]; exact h)]
  | fault f => rfl
  | refused r => rfl

/-- A step that answers a next state: the instruction it fetched, what `exec` answered, and the end of the instruction. -/
theorem step_next {s t : State} (h : step s = .next t) :
    s.run = .running ∧ ∃ i u v, fetchInstr s = .ok (i, u) ∧ exec i u = .next v ∧ endInstruction v = .ok t := by
  simp only [step] at h
  split at h
  · cases h
  · rename_i hr
    refine ⟨hr, ?_⟩
    split at h
    · cases h
    · rename_i i u hf
      cases he : exec i u with
      | next v =>
        rw [he] at h
        simp only [endStep, finish_eq_next] at h
        exact ⟨i, u, v, hf, he, h⟩
      | fault f => rw [he] at h; cases h
      | refused r => rw [he] at h; cases h

/-- The end of an instruction that completes: nothing under the flat backend, the oracle discarded under the oracle. -/
theorem endInstruction_ok {s t : State} (h : endInstruction s = .ok t) :
    (s.params.backend = .flat ∧ t = s) ∨ (s.params.backend = .oracle ∧ t = { s with oracle := Oracle.empty }) := by
  simp only [endInstruction] at h
  split at h
  · cases h; simp_all
  · split at h
    · cases h
    · cases h; simp_all

end Sys2Proof.Machine
end

