-- ==== Sys2Proof/Tests/Slice0.lean ====
section
/-!
SUPPORT. The model's own tests: words written from the opcode map of spec/30_encoding.md R103, R104; single steps whose expected
results are the vectors of spec/95_test_vectors.md, named in each comment; and, for every obligation that has hypotheses, a
witness that meets them.
-/

open Sys2Proof Sys2Proof.Machine

namespace Sys2Proof.Tests

/-! ## Helpers -/

/-- The registers that a test compares. -/
structure Regs where
  a : Byte
  x : Byte
  y : Byte
  sp : Byte
  p : Byte
  pc : Addr
  deriving DecidableEq, Repr

def regs (r : Result) : Option Regs :=
  match r with
  | .next s => some ⟨s.a, s.x, s.y, s.sp, s.p.toByte, s.pc⟩
  | .fault _ => none
  | .refused _ => none

def byteAfter (r : Result) (a : Addr) : Option Byte :=
  match r with
  | .next s => some (s.mem.byteAt a)
  | .fault _ => none
  | .refused _ => none

def faultOf (r : Result) : Option Fault :=
  match r with
  | .next _ => none
  | .fault f => some f
  | .refused _ => none

/-- The vectors' start state: the default fresh state with code at `pc` and data in memory. -/
def beginAt (pc : Addr) (code : List Byte) (data : List (Addr × Byte)) : State :=
  data.foldr (fun e s => placeByte e.1 e.2 s) (placeBytes code pc { State.reset with pc := pc })

/-- With the code at 0x0600. -/
def begin600 (code : List Byte) (data : List (Addr × Byte)) : State := beginAt 0x0600 code data

/-- The oracle vectors' start state: the code at 0x0600 registered as reads, and further reads and writes. -/
def oracle600 (code : List Byte) (reads writes : List (Addr × Byte)) : State :=
  placeBytes code 0x0600 (verificationLaunch { State.reset with pc := 0x0600 } reads writes)

/-- Other parameters. -/
def withParams (f : Params → Params) (s : State) : State := { s with params := f s.params }

/-! ## Decoding: every row of the opcode map (R103, R104), operand bytes by R101 and R102 -/

theorem test_decode_lda :
    decode [0xA1, 0x5A] = .ok (.ldaIndX 0x5A, []) ∧
    decode [0xA5, 0x5A] = .ok (.ldaZp 0x5A, []) ∧
    decode [0xA9, 0x5A] = .ok (.ldaImm 0x5A, []) ∧
    decode [0xAD, 0x34, 0x12] = .ok (.ldaAbs 0x1234, []) ∧
    decode [0xB1, 0x5A] = .ok (.ldaIndY 0x5A, []) ∧
    decode [0xB5, 0x5A] = .ok (.ldaZpX 0x5A, []) ∧
    decode [0xB9, 0x34, 0x12] = .ok (.ldaAbsY 0x1234, []) ∧
    decode [0xBD, 0x34, 0x12] = .ok (.ldaAbsX 0x1234, []) := by decide

theorem test_decode_ldx_ldy :
    decode [0xA2, 0x5A] = .ok (.ldxImm 0x5A, []) ∧
    decode [0xA6, 0x5A] = .ok (.ldxZp 0x5A, []) ∧
    decode [0xAE, 0x34, 0x12] = .ok (.ldxAbs 0x1234, []) ∧
    decode [0xB6, 0x5A] = .ok (.ldxZpY 0x5A, []) ∧
    decode [0xBE, 0x34, 0x12] = .ok (.ldxAbsY 0x1234, []) ∧
    decode [0xA0, 0x5A] = .ok (.ldyImm 0x5A, []) ∧
    decode [0xA4, 0x5A] = .ok (.ldyZp 0x5A, []) ∧
    decode [0xAC, 0x34, 0x12] = .ok (.ldyAbs 0x1234, []) ∧
    decode [0xB4, 0x5A] = .ok (.ldyZpX 0x5A, []) ∧
    decode [0xBC, 0x34, 0x12] = .ok (.ldyAbsX 0x1234, []) := by decide

theorem test_decode_sta :
    decode [0x81, 0x5A] = .ok (.staIndX 0x5A, []) ∧
    decode [0x85, 0x5A] = .ok (.staZp 0x5A, []) ∧
    decode [0x8D, 0x34, 0x12] = .ok (.staAbs 0x1234, []) ∧
    decode [0x91, 0x5A] = .ok (.staIndY 0x5A, []) ∧
    decode [0x95, 0x5A] = .ok (.staZpX 0x5A, []) ∧
    decode [0x99, 0x34, 0x12] = .ok (.staAbsY 0x1234, []) ∧
    decode [0x9D, 0x34, 0x12] = .ok (.staAbsX 0x1234, []) := by decide

theorem test_decode_stx_sty :
    decode [0x86, 0x5A] = .ok (.stxZp 0x5A, []) ∧
    decode [0x8E, 0x34, 0x12] = .ok (.stxAbs 0x1234, []) ∧
    decode [0x96, 0x5A] = .ok (.stxZpY 0x5A, []) ∧
    decode [0x84, 0x5A] = .ok (.styZp 0x5A, []) ∧
    decode [0x8C, 0x34, 0x12] = .ok (.styAbs 0x1234, []) ∧
    decode [0x94, 0x5A] = .ok (.styZpX 0x5A, []) := by decide

theorem test_decode_adc :
    decode [0x61, 0x5A] = .ok (.adcIndX 0x5A, []) ∧
    decode [0x65, 0x5A] = .ok (.adcZp 0x5A, []) ∧
    decode [0x69, 0x5A] = .ok (.adcImm 0x5A, []) ∧
    decode [0x6D, 0x34, 0x12] = .ok (.adcAbs 0x1234, []) ∧
    decode [0x71, 0x5A] = .ok (.adcIndY 0x5A, []) ∧
    decode [0x75, 0x5A] = .ok (.adcZpX 0x5A, []) ∧
    decode [0x79, 0x34, 0x12] = .ok (.adcAbsY 0x1234, []) ∧
    decode [0x7D, 0x34, 0x12] = .ok (.adcAbsX 0x1234, []) := by decide

theorem test_decode_sbc :
    decode [0xE1, 0x5A] = .ok (.sbcIndX 0x5A, []) ∧
    decode [0xE5, 0x5A] = .ok (.sbcZp 0x5A, []) ∧
    decode [0xE9, 0x5A] = .ok (.sbcImm 0x5A, []) ∧
    decode [0xED, 0x34, 0x12] = .ok (.sbcAbs 0x1234, []) ∧
    decode [0xF1, 0x5A] = .ok (.sbcIndY 0x5A, []) ∧
    decode [0xF5, 0x5A] = .ok (.sbcZpX 0x5A, []) ∧
    decode [0xF9, 0x34, 0x12] = .ok (.sbcAbsY 0x1234, []) ∧
    decode [0xFD, 0x34, 0x12] = .ok (.sbcAbsX 0x1234, []) := by decide

theorem test_decode_and :
    decode [0x21, 0x5A] = .ok (.andIndX 0x5A, []) ∧
    decode [0x25, 0x5A] = .ok (.andZp 0x5A, []) ∧
    decode [0x29, 0x5A] = .ok (.andImm 0x5A, []) ∧
    decode [0x2D, 0x34, 0x12] = .ok (.andAbs 0x1234, []) ∧
    decode [0x31, 0x5A] = .ok (.andIndY 0x5A, []) ∧
    decode [0x35, 0x5A] = .ok (.andZpX 0x5A, []) ∧
    decode [0x39, 0x34, 0x12] = .ok (.andAbsY 0x1234, []) ∧
    decode [0x3D, 0x34, 0x12] = .ok (.andAbsX 0x1234, []) := by decide

theorem test_decode_ora :
    decode [0x01, 0x5A] = .ok (.oraIndX 0x5A, []) ∧
    decode [0x05, 0x5A] = .ok (.oraZp 0x5A, []) ∧
    decode [0x09, 0x5A] = .ok (.oraImm 0x5A, []) ∧
    decode [0x0D, 0x34, 0x12] = .ok (.oraAbs 0x1234, []) ∧
    decode [0x11, 0x5A] = .ok (.oraIndY 0x5A, []) ∧
    decode [0x15, 0x5A] = .ok (.oraZpX 0x5A, []) ∧
    decode [0x19, 0x34, 0x12] = .ok (.oraAbsY 0x1234, []) ∧
    decode [0x1D, 0x34, 0x12] = .ok (.oraAbsX 0x1234, []) := by decide

theorem test_decode_eor :
    decode [0x41, 0x5A] = .ok (.eorIndX 0x5A, []) ∧
    decode [0x45, 0x5A] = .ok (.eorZp 0x5A, []) ∧
    decode [0x49, 0x5A] = .ok (.eorImm 0x5A, []) ∧
    decode [0x4D, 0x34, 0x12] = .ok (.eorAbs 0x1234, []) ∧
    decode [0x51, 0x5A] = .ok (.eorIndY 0x5A, []) ∧
    decode [0x55, 0x5A] = .ok (.eorZpX 0x5A, []) ∧
    decode [0x59, 0x34, 0x12] = .ok (.eorAbsY 0x1234, []) ∧
    decode [0x5D, 0x34, 0x12] = .ok (.eorAbsX 0x1234, []) := by decide

theorem test_decode_cmp :
    decode [0xC1, 0x5A] = .ok (.cmpIndX 0x5A, []) ∧
    decode [0xC5, 0x5A] = .ok (.cmpZp 0x5A, []) ∧
    decode [0xC9, 0x5A] = .ok (.cmpImm 0x5A, []) ∧
    decode [0xCD, 0x34, 0x12] = .ok (.cmpAbs 0x1234, []) ∧
    decode [0xD1, 0x5A] = .ok (.cmpIndY 0x5A, []) ∧
    decode [0xD5, 0x5A] = .ok (.cmpZpX 0x5A, []) ∧
    decode [0xD9, 0x34, 0x12] = .ok (.cmpAbsY 0x1234, []) ∧
    decode [0xDD, 0x34, 0x12] = .ok (.cmpAbsX 0x1234, []) := by decide

theorem test_decode_cpx_cpy_bit :
    decode [0xE0, 0x5A] = .ok (.cpxImm 0x5A, []) ∧
    decode [0xE4, 0x5A] = .ok (.cpxZp 0x5A, []) ∧
    decode [0xEC, 0x34, 0x12] = .ok (.cpxAbs 0x1234, []) ∧
    decode [0xC0, 0x5A] = .ok (.cpyImm 0x5A, []) ∧
    decode [0xC4, 0x5A] = .ok (.cpyZp 0x5A, []) ∧
    decode [0xCC, 0x34, 0x12] = .ok (.cpyAbs 0x1234, []) ∧
    decode [0x24, 0x5A] = .ok (.bitZp 0x5A, []) ∧
    decode [0x2C, 0x34, 0x12] = .ok (.bitAbs 0x1234, []) := by decide

theorem test_decode_asl_lsr :
    decode [0x06, 0x5A] = .ok (.aslZp 0x5A, []) ∧
    decode [0x0A] = .ok (.aslA, []) ∧
    decode [0x0E, 0x34, 0x12] = .ok (.aslAbs 0x1234, []) ∧
    decode [0x16, 0x5A] = .ok (.aslZpX 0x5A, []) ∧
    decode [0x1E, 0x34, 0x12] = .ok (.aslAbsX 0x1234, []) ∧
    decode [0x46, 0x5A] = .ok (.lsrZp 0x5A, []) ∧
    decode [0x4A] = .ok (.lsrA, []) ∧
    decode [0x4E, 0x34, 0x12] = .ok (.lsrAbs 0x1234, []) ∧
    decode [0x56, 0x5A] = .ok (.lsrZpX 0x5A, []) ∧
    decode [0x5E, 0x34, 0x12] = .ok (.lsrAbsX 0x1234, []) := by decide

theorem test_decode_rol_ror :
    decode [0x26, 0x5A] = .ok (.rolZp 0x5A, []) ∧
    decode [0x2A] = .ok (.rolA, []) ∧
    decode [0x2E, 0x34, 0x12] = .ok (.rolAbs 0x1234, []) ∧
    decode [0x36, 0x5A] = .ok (.rolZpX 0x5A, []) ∧
    decode [0x3E, 0x34, 0x12] = .ok (.rolAbsX 0x1234, []) ∧
    decode [0x66, 0x5A] = .ok (.rorZp 0x5A, []) ∧
    decode [0x6A] = .ok (.rorA, []) ∧
    decode [0x6E, 0x34, 0x12] = .ok (.rorAbs 0x1234, []) ∧
    decode [0x76, 0x5A] = .ok (.rorZpX 0x5A, []) ∧
    decode [0x7E, 0x34, 0x12] = .ok (.rorAbsX 0x1234, []) := by decide

theorem test_decode_inc_dec :
    decode [0xE6, 0x5A] = .ok (.incZp 0x5A, []) ∧
    decode [0xEE, 0x34, 0x12] = .ok (.incAbs 0x1234, []) ∧
    decode [0xF6, 0x5A] = .ok (.incZpX 0x5A, []) ∧
    decode [0xFE, 0x34, 0x12] = .ok (.incAbsX 0x1234, []) ∧
    decode [0xC6, 0x5A] = .ok (.decZp 0x5A, []) ∧
    decode [0xCE, 0x34, 0x12] = .ok (.decAbs 0x1234, []) ∧
    decode [0xD6, 0x5A] = .ok (.decZpX 0x5A, []) ∧
    decode [0xDE, 0x34, 0x12] = .ok (.decAbsX 0x1234, []) := by decide

theorem test_decode_branches :
    decode [0x90, 0x5A] = .ok (.bcc 0x5A, []) ∧
    decode [0xB0, 0x5A] = .ok (.bcs 0x5A, []) ∧
    decode [0xF0, 0x5A] = .ok (.beq 0x5A, []) ∧
    decode [0xD0, 0x5A] = .ok (.bne 0x5A, []) ∧
    decode [0x30, 0x5A] = .ok (.bmi 0x5A, []) ∧
    decode [0x10, 0x5A] = .ok (.bpl 0x5A, []) ∧
    decode [0x50, 0x5A] = .ok (.bvc 0x5A, []) ∧
    decode [0x70, 0x5A] = .ok (.bvs 0x5A, []) := by decide

theorem test_decode_jmp_jsr_rts_rti_brk :
    decode [0x4C, 0x34, 0x12] = .ok (.jmpAbs 0x1234, []) ∧
    decode [0x6C, 0x34, 0x12] = .ok (.jmpInd 0x1234, []) ∧
    decode [0x20, 0x34, 0x12] = .ok (.jsr 0x1234, []) ∧
    decode [0x60] = .ok (.rts, []) ∧
    decode [0x40] = .ok (.rti, []) ∧
    decode [0x00] = .ok (.brk, []) := by decide

theorem test_decode_transfers_and_stack :
    decode [0xAA] = .ok (.tax, []) ∧
    decode [0xA8] = .ok (.tay, []) ∧
    decode [0x8A] = .ok (.txa, []) ∧
    decode [0x98] = .ok (.tya, []) ∧
    decode [0xBA] = .ok (.tsx, []) ∧
    decode [0x9A] = .ok (.txs, []) ∧
    decode [0x48] = .ok (.pha, []) ∧
    decode [0x08] = .ok (.php, []) ∧
    decode [0x68] = .ok (.pla, []) ∧
    decode [0x28] = .ok (.plp, []) := by decide

theorem test_decode_flags :
    decode [0x18] = .ok (.clc, []) ∧
    decode [0x38] = .ok (.sec, []) ∧
    decode [0x58] = .ok (.cli, []) ∧
    decode [0x78] = .ok (.sei, []) ∧
    decode [0xD8] = .ok (.cld, []) ∧
    decode [0xF8] = .ok (.sed, []) ∧
    decode [0xB8] = .ok (.clv, []) := by decide

theorem test_decode_inx_iny_dex_dey_nop :
    decode [0xE8] = .ok (.inx, []) ∧
    decode [0xC8] = .ok (.iny, []) ∧
    decode [0xCA] = .ok (.dex, []) ∧
    decode [0x88] = .ok (.dey, []) ∧
    decode [0xEA] = .ok (.nop, []) := by decide

/-- R106: an unimplemented byte, with the bytes after it left alone. -/
theorem test_decode_unimplemented : decode [0x02, 0xA9] = .ok (.unimplemented 0x02, [0xA9]) ∧
    decode [0xFF] = .ok (.unimplemented 0xFF, []) := by decide

/-- Too few bytes are rejected by name. -/
theorem test_decode_truncated : decode [0xA9] = .error (.truncated 0xA9) ∧
    decode [0x4C, 0x34] = .error (.truncated 0x4C) ∧ decode [] = .error .noBytes := by decide

/-- R101: the word's first byte is the opcode, the later ones the operand, low byte first; with no bits for the operand it is
zero. -/
theorem test_table_words : decodeTableWord 24 0x12344C = some (.jmpAbs 0x1234) ∧ decodeTableWord 16 0x05A9 = some (.ldaImm 0x05) ∧
    decodeTableWord 8 0xA9 = some (.ldaImm 0x00) ∧ decodeTableWord 8 0x4C = some (.jmpAbs 0x0000) := by decide

/-! ## Well-formedness -/

/-- The one check: an unimplemented instruction does not carry a documented opcode. -/
theorem test_wf_refuses_documented_opcode : (Instr.unimplemented 0xA9).wf = false := by decide

theorem test_wf_accepts : (Instr.unimplemented 0x02).wf = true ∧ (Instr.ldaImm 0xFF).wf = true ∧
    (Instr.jmpInd 0xFFFF).wf = true := by decide

/-! ## One step (spec/95_test_vectors.md section 2): the registers after it, the bytes it stored -/

/-- Vector L3. -/
theorem test_lda :
    regs (step (begin600 [0xA9, 0x80] [])) = some ⟨0x80, 0x00, 0x00, 0xFD, 0xA4, 0x0602⟩ := by decide

/-- Vector L4. -/
theorem test_ldx :
    regs (step (begin600 [0xA2, 0xFF] [])) = some ⟨0x00, 0xFF, 0x00, 0xFD, 0xA4, 0x0602⟩ := by decide

/-- Vector L5. -/
theorem test_ldy :
    regs (step (begin600 [0xA0, 0x00] [])) = some ⟨0x00, 0x00, 0x00, 0xFD, 0x26, 0x0602⟩ := by decide

/-- Vector L6. -/
theorem test_sta :
    regs (step ({ begin600 [0x85, 0x10] [] with a := 0x05 })) = some ⟨0x05, 0x00, 0x00, 0xFD, 0x24, 0x0602⟩ ∧
    byteAfter (step ({ begin600 [0x85, 0x10] [] with a := 0x05 })) 0x0010 = some 0x05 := by decide

/-- Vector L10. -/
theorem test_sta_again :
    regs (step ({ begin600 [0x91, 0x10] [(0x0010, 0xF8), (0x0011, 0x12)] with a := 0x3C, y := 0x10 })) = some ⟨0x3C, 0x00, 0x10, 0xFD, 0x24, 0x0602⟩ ∧
    byteAfter (step ({ begin600 [0x91, 0x10] [(0x0010, 0xF8), (0x0011, 0x12)] with a := 0x3C, y := 0x10 })) 0x1308 = some 0x3C := by decide

/-- Vector L7. -/
theorem test_stx :
    regs (step ({ begin600 [0x96, 0xFF] [] with x := 0x42, y := 0x01 })) = some ⟨0x00, 0x42, 0x01, 0xFD, 0x24, 0x0602⟩ ∧
    byteAfter (step ({ begin600 [0x96, 0xFF] [] with x := 0x42, y := 0x01 })) 0x0000 = some 0x42 := by decide

/-- Vector L8. -/
theorem test_sty :
    regs (step ({ begin600 [0x94, 0xFF] [] with x := 0x02, y := 0x07 })) = some ⟨0x00, 0x02, 0x07, 0xFD, 0x24, 0x0602⟩ ∧
    byteAfter (step ({ begin600 [0x94, 0xFF] [] with x := 0x02, y := 0x07 })) 0x0001 = some 0x07 := by decide

/-- Vector A4. -/
theorem test_adc :
    regs (step ({ begin600 [0x69, 0xFF] [] with a := 0xFF, p := Status.ofByte 0x25 })) = some ⟨0xFF, 0x00, 0x00, 0xFD, 0xA5, 0x0602⟩ := by decide

/-- Vector A5. -/
theorem test_adc_again :
    regs (step ({ begin600 [0x69, 0x01] [] with a := 0x09, p := Status.ofByte 0x2C })) = some ⟨0x0A, 0x00, 0x00, 0xFD, 0x2C, 0x0602⟩ := by decide

/-- Vector A8. -/
theorem test_sbc :
    regs (step ({ begin600 [0xE9, 0x01] [] with a := 0x80, p := Status.ofByte 0x25 })) = some ⟨0x7F, 0x00, 0x00, 0xFD, 0x65, 0x0602⟩ := by decide

/-- Vector A9. -/
theorem test_sbc_again :
    regs (step (begin600 [0xE9, 0x00] [])) = some ⟨0xFF, 0x00, 0x00, 0xFD, 0xA4, 0x0602⟩ := by decide

/-- Vector A12. -/
theorem test_and :
    regs (step ({ begin600 [0x29, 0xAA] [] with a := 0xCC })) = some ⟨0x88, 0x00, 0x00, 0xFD, 0xA4, 0x0602⟩ := by decide

/-- Vector A14. -/
theorem test_ora :
    regs (step ({ begin600 [0x09, 0x80] [] with a := 0x0F })) = some ⟨0x8F, 0x00, 0x00, 0xFD, 0xA4, 0x0602⟩ := by decide

/-- Vector A15. -/
theorem test_eor :
    regs (step ({ begin600 [0x49, 0x0F] [] with a := 0xFF })) = some ⟨0xF0, 0x00, 0x00, 0xFD, 0xA4, 0x0602⟩ := by decide

/-- Vector A19. -/
theorem test_cmp :
    regs (step ({ begin600 [0xC9, 0x00] [] with a := 0x80 })) = some ⟨0x80, 0x00, 0x00, 0xFD, 0xA5, 0x0602⟩ := by decide

/-- Vector A20. -/
theorem test_cmp_again :
    regs (step ({ begin600 [0xC9, 0xFF] [] with a := 0x01 })) = some ⟨0x01, 0x00, 0x00, 0xFD, 0x24, 0x0602⟩ := by decide

/-- Vector A22. -/
theorem test_cpx :
    regs (step ({ begin600 [0xE0, 0x05] [] with x := 0x05 })) = some ⟨0x00, 0x05, 0x00, 0xFD, 0x27, 0x0602⟩ := by decide

/-- Vector A23. -/
theorem test_cpy :
    regs (step (begin600 [0xC0, 0x01] [])) = some ⟨0x00, 0x00, 0x00, 0xFD, 0xA4, 0x0602⟩ := by decide

/-- Vector A24. -/
theorem test_bit :
    regs (step (begin600 [0x24, 0x10] [(0x0010, 0xC0)])) = some ⟨0x00, 0x00, 0x00, 0xFD, 0xE6, 0x0602⟩ := by decide

/-- Vector A26. -/
theorem test_bit_again :
    regs (step ({ begin600 [0x24, 0x10] [(0x0010, 0x41)] with a := 0x01 })) = some ⟨0x01, 0x00, 0x00, 0xFD, 0x64, 0x0602⟩ := by decide

/-- Vector H2. -/
theorem test_asl :
    regs (step ({ begin600 [0x0A] [] with a := 0x80 })) = some ⟨0x00, 0x00, 0x00, 0xFD, 0x27, 0x0601⟩ := by decide

/-- Vector H3. -/
theorem test_lsr :
    regs (step ({ begin600 [0x4A] [] with a := 0x01 })) = some ⟨0x00, 0x00, 0x00, 0xFD, 0x27, 0x0601⟩ := by decide

/-- Vector H4. -/
theorem test_lsr_again :
    regs (step (begin600 [0x46, 0x10] [(0x0010, 0x03)])) = some ⟨0x00, 0x00, 0x00, 0xFD, 0x25, 0x0602⟩ ∧
    byteAfter (step (begin600 [0x46, 0x10] [(0x0010, 0x03)])) 0x0010 = some 0x01 := by decide

/-- Vector H5. -/
theorem test_rol :
    regs (step ({ begin600 [0x2A] [] with a := 0x40, p := Status.ofByte 0x25 })) = some ⟨0x81, 0x00, 0x00, 0xFD, 0xA4, 0x0601⟩ := by decide

/-- Vector H7. -/
theorem test_ror :
    regs (step ({ begin600 [0x6A] [] with a := 0x02, p := Status.ofByte 0x25 })) = some ⟨0x81, 0x00, 0x00, 0xFD, 0xA4, 0x0601⟩ := by decide

/-- Vector H10. -/
theorem test_inc :
    regs (step ({ begin600 [0xE6, 0x10] [(0x0010, 0xFF)] with p := Status.ofByte 0x25 })) = some ⟨0x00, 0x00, 0x00, 0xFD, 0x27, 0x0602⟩ ∧
    byteAfter (step ({ begin600 [0xE6, 0x10] [(0x0010, 0xFF)] with p := Status.ofByte 0x25 })) 0x0010 = some 0x00 := by decide

/-- Vector H13. -/
theorem test_inc_again :
    regs (step ({ begin600 [0xFE, 0xFF, 0xFF] [(0x0000, 0x7F)] with x := 0x01 })) = some ⟨0x00, 0x01, 0x00, 0xFD, 0xA4, 0x0603⟩ ∧
    byteAfter (step ({ begin600 [0xFE, 0xFF, 0xFF] [(0x0000, 0x7F)] with x := 0x01 })) 0x0000 = some 0x80 := by decide

/-- Vector H12. -/
theorem test_dec :
    regs (step (begin600 [0xC6, 0x10] [(0x0010, 0x00)])) = some ⟨0x00, 0x00, 0x00, 0xFD, 0xA4, 0x0602⟩ ∧
    byteAfter (step (begin600 [0xC6, 0x10] [(0x0010, 0x00)])) 0x0010 = some 0xFF := by decide

/-- Vector C1. -/
theorem test_bcc :
    regs (step (begin600 [0x90, 0x05] [])) = some ⟨0x00, 0x00, 0x00, 0xFD, 0x24, 0x0607⟩ := by decide

/-- Vector C2. -/
theorem test_bcs :
    regs (step (begin600 [0xB0, 0x05] [])) = some ⟨0x00, 0x00, 0x00, 0xFD, 0x24, 0x0602⟩ := by decide

/-- Vector M12. -/
theorem test_beq :
    regs (step ({ beginAt 0x0610 [0xF0, 0xFC] [] with p := Status.ofByte 0x26 })) = some ⟨0x00, 0x00, 0x00, 0xFD, 0x26, 0x060E⟩ := by decide

/-- Vector M13. -/
theorem test_bne :
    regs (step (begin600 [0xD0, 0x80] [])) = some ⟨0x00, 0x00, 0x00, 0xFD, 0x24, 0x0582⟩ := by decide

/-- Vector M14. -/
theorem test_bmi :
    regs (step ({ begin600 [0x30, 0x7F] [] with p := Status.ofByte 0xA4 })) = some ⟨0x00, 0x00, 0x00, 0xFD, 0xA4, 0x0681⟩ := by decide

/-- Vector C3. -/
theorem test_bpl :
    regs (step (begin600 [0x10, 0x00] [])) = some ⟨0x00, 0x00, 0x00, 0xFD, 0x24, 0x0602⟩ := by decide

/-- Vector C4. -/
theorem test_bvc :
    regs (step ({ begin600 [0x50, 0x10] [] with p := Status.ofByte 0x64 })) = some ⟨0x00, 0x00, 0x00, 0xFD, 0x64, 0x0602⟩ := by decide

/-- Vector M15. -/
theorem test_bvs :
    regs (step ({ beginAt 0xFFF0 [0x70, 0x10] [] with p := Status.ofByte 0x64 })) = some ⟨0x00, 0x00, 0x00, 0xFD, 0x64, 0x0002⟩ := by decide

/-- Vector C6. -/
theorem test_jmp :
    regs (step (begin600 [0x4C, 0x34, 0x12] [])) = some ⟨0x00, 0x00, 0x00, 0xFD, 0x24, 0x1234⟩ := by decide

/-- Vector M6. -/
theorem test_jmp_again :
    regs (step (begin600 [0x6C, 0xFF, 0xFF] [(0xFFFF, 0x00), (0xFF00, 0x80), (0x0000, 0x90)])) = some ⟨0x00, 0x00, 0x00, 0xFD, 0x24, 0x8000⟩ := by decide

/-- Vector C8. -/
theorem test_jsr :
    regs (step (begin600 [0x20, 0x00, 0x07] [])) = some ⟨0x00, 0x00, 0x00, 0xFB, 0x24, 0x0700⟩ ∧
    byteAfter (step (begin600 [0x20, 0x00, 0x07] [])) 0x01FD = some 0x06 ∧
    byteAfter (step (begin600 [0x20, 0x00, 0x07] [])) 0x01FC = some 0x02 := by decide

/-- Vector C9. -/
theorem test_jsr_again :
    regs (step ({ begin600 [0x20, 0x00, 0x07] [] with sp := 0x00 })) = some ⟨0x00, 0x00, 0x00, 0xFE, 0x24, 0x0700⟩ ∧
    byteAfter (step ({ begin600 [0x20, 0x00, 0x07] [] with sp := 0x00 })) 0x0100 = some 0x06 ∧
    byteAfter (step ({ begin600 [0x20, 0x00, 0x07] [] with sp := 0x00 })) 0x01FF = some 0x02 := by decide

/-- Vector C11. -/
theorem test_rts :
    regs (step (begin600 [0x60] [(0x01FE, 0xFF), (0x01FF, 0xFF)])) = some ⟨0x00, 0x00, 0x00, 0xFF, 0x24, 0x0000⟩ := by decide

/-- Vector C12. -/
theorem test_rts_again :
    regs (step ({ begin600 [0x60] [(0x0100, 0x10), (0x0101, 0x20)] with sp := 0xFF })) = some ⟨0x00, 0x00, 0x00, 0x01, 0x24, 0x2011⟩ := by decide

/-- Vector C13. -/
theorem test_rti :
    regs (step ({ begin600 [0x40] [(0x01FB, 0xFF), (0x01FC, 0x02), (0x01FD, 0x06)] with sp := 0xFA })) = some ⟨0x00, 0x00, 0x00, 0xFD, 0xEF, 0x0602⟩ := by decide

/-- Vector C14. -/
theorem test_rti_again :
    regs (step ({ begin600 [0x40] [(0x01FB, 0x00), (0x01FC, 0x00), (0x01FD, 0x80)] with sp := 0xFA })) = some ⟨0x00, 0x00, 0x00, 0xFD, 0x20, 0x8000⟩ := by decide

/-- Vector C15. -/
theorem test_brk :
    regs (step (begin600 [0x00] [(0xFFFE, 0x00), (0xFFFF, 0x80)])) = some ⟨0x00, 0x00, 0x00, 0xFA, 0x24, 0x8000⟩ ∧
    byteAfter (step (begin600 [0x00] [(0xFFFE, 0x00), (0xFFFF, 0x80)])) 0x01FD = some 0x06 ∧
    byteAfter (step (begin600 [0x00] [(0xFFFE, 0x00), (0xFFFF, 0x80)])) 0x01FC = some 0x02 ∧
    byteAfter (step (begin600 [0x00] [(0xFFFE, 0x00), (0xFFFF, 0x80)])) 0x01FB = some 0x34 := by decide

/-- Vector C16. -/
theorem test_brk_again :
    regs (step ({ begin600 [0x00] [(0xFFFE, 0x00), (0xFFFF, 0x90)] with p := Status.ofByte 0xA1 })) = some ⟨0x00, 0x00, 0x00, 0xFA, 0xA5, 0x9000⟩ ∧
    byteAfter (step ({ begin600 [0x00] [(0xFFFE, 0x00), (0xFFFF, 0x90)] with p := Status.ofByte 0xA1 })) 0x01FD = some 0x06 ∧
    byteAfter (step ({ begin600 [0x00] [(0xFFFE, 0x00), (0xFFFF, 0x90)] with p := Status.ofByte 0xA1 })) 0x01FC = some 0x02 ∧
    byteAfter (step ({ begin600 [0x00] [(0xFFFE, 0x00), (0xFFFF, 0x90)] with p := Status.ofByte 0xA1 })) 0x01FB = some 0xB1 := by decide

/-- Vector T1. -/
theorem test_tax :
    regs (step ({ begin600 [0xAA] [] with a := 0x80 })) = some ⟨0x80, 0x80, 0x00, 0xFD, 0xA4, 0x0601⟩ := by decide

/-- Vector T2. -/
theorem test_tay : regs (step (begin600 [0xA8] [])) = some ⟨0x00, 0x00, 0x00, 0xFD, 0x26, 0x0601⟩ := by decide

/-- Vector T3. -/
theorem test_txa :
    regs (step ({ begin600 [0x8A] [] with x := 0xFF })) = some ⟨0xFF, 0xFF, 0x00, 0xFD, 0xA4, 0x0601⟩ := by decide

/-- Vector T4. -/
theorem test_tya :
    regs (step ({ begin600 [0x98] [] with y := 0x12 })) = some ⟨0x12, 0x00, 0x12, 0xFD, 0x24, 0x0601⟩ := by decide

/-- Vector T5. -/
theorem test_tsx : regs (step (begin600 [0xBA] [])) = some ⟨0x00, 0xFD, 0x00, 0xFD, 0xA4, 0x0601⟩ := by decide

/-- Vector T7. -/
theorem test_txs : regs (step (begin600 [0x9A] [])) = some ⟨0x00, 0x00, 0x00, 0x00, 0x24, 0x0601⟩ := by decide

/-- Vector T9. -/
theorem test_pha :
    regs (step ({ begin600 [0x48] [] with a := 0x42, sp := 0x00 })) = some ⟨0x42, 0x00, 0x00, 0xFF, 0x24, 0x0601⟩ ∧
    byteAfter (step ({ begin600 [0x48] [] with a := 0x42, sp := 0x00 })) 0x0100 = some 0x42 := by decide

/-- Vector T10. -/
theorem test_php :
    regs (step ({ begin600 [0x08] [] with p := Status.ofByte 0xE7 })) = some ⟨0x00, 0x00, 0x00, 0xFC, 0xE7, 0x0601⟩ ∧
    byteAfter (step ({ begin600 [0x08] [] with p := Status.ofByte 0xE7 })) 0x01FD = some 0xF7 := by decide

/-- Vector T12. -/
theorem test_pla :
    regs (step ({ begin600 [0x68] [(0x01FD, 0x00)] with sp := 0xFC })) = some ⟨0x00, 0x00, 0x00, 0xFD, 0x26, 0x0601⟩ := by decide

/-- Vector T13. -/
theorem test_pla_again :
    regs (step ({ begin600 [0x68] [(0x0100, 0x80)] with sp := 0xFF })) = some ⟨0x80, 0x00, 0x00, 0x00, 0xA4, 0x0601⟩ := by decide

/-- Vector T16. -/
theorem test_plp :
    regs (step ({ begin600 [0x28] [(0x01FD, 0xFF)] with sp := 0xFC })) = some ⟨0x00, 0x00, 0x00, 0xFD, 0xEF, 0x0601⟩ := by decide

/-- Vector T17. -/
theorem test_clc :
    regs (step ({ begin600 [0x18] [] with p := Status.ofByte 0x25 })) = some ⟨0x00, 0x00, 0x00, 0xFD, 0x24, 0x0601⟩ := by decide

/-- Vector T17. -/
theorem test_sec : regs (step (begin600 [0x38] [])) = some ⟨0x00, 0x00, 0x00, 0xFD, 0x25, 0x0601⟩ := by decide

/-- Vector T18. -/
theorem test_cli : regs (step (begin600 [0x58] [])) = some ⟨0x00, 0x00, 0x00, 0xFD, 0x20, 0x0601⟩ := by decide

/-- Vector T18. -/
theorem test_sei :
    regs (step ({ begin600 [0x78] [] with p := Status.ofByte 0x20 })) = some ⟨0x00, 0x00, 0x00, 0xFD, 0x24, 0x0601⟩ := by decide

/-- Vector T19. -/
theorem test_cld :
    regs (step ({ begin600 [0xD8] [] with p := Status.ofByte 0x2C })) = some ⟨0x00, 0x00, 0x00, 0xFD, 0x24, 0x0601⟩ := by decide

/-- Vector T19. -/
theorem test_sed : regs (step (begin600 [0xF8] [])) = some ⟨0x00, 0x00, 0x00, 0xFD, 0x2C, 0x0601⟩ := by decide

/-- Vector T20. -/
theorem test_clv :
    regs (step ({ begin600 [0xB8] [] with p := Status.ofByte 0x64 })) = some ⟨0x00, 0x00, 0x00, 0xFD, 0x24, 0x0601⟩ := by decide

/-- Vector T21. -/
theorem test_inx :
    regs (step ({ begin600 [0xE8] [] with x := 0xFF, p := Status.ofByte 0x25 })) = some ⟨0x00, 0x00, 0x00, 0xFD, 0x27, 0x0601⟩ := by decide

/-- Vector T23. -/
theorem test_iny :
    regs (step ({ begin600 [0xC8] [] with y := 0xFF })) = some ⟨0x00, 0x00, 0x00, 0xFD, 0x26, 0x0601⟩ := by decide

/-- Vector T24. -/
theorem test_dex : regs (step (begin600 [0xCA] [])) = some ⟨0x00, 0xFF, 0x00, 0xFD, 0xA4, 0x0601⟩ := by decide

/-- Vector T26. -/
theorem test_dey : regs (step (begin600 [0x88] [])) = some ⟨0x00, 0x00, 0xFF, 0xFD, 0xA4, 0x0601⟩ := by decide

/-- Vector T27. -/
theorem test_nop : regs (step (begin600 [0xEA] [])) = some ⟨0x00, 0x00, 0x00, 0xFD, 0x24, 0x0601⟩ := by decide

/-! ## Addressing modes (section 2.1): the registers and the accesses, in order -/

/-- Vector M1. -/
theorem test_mode_zeroPage :
    regs (step (begin600 [0xA5, 0x10] [(0x0010, 0x99)])) = some ⟨0x99, 0x00, 0x00, 0xFD, 0xA4, 0x0602⟩ ∧
    stepAccesses (.ldaZp 0x10) (begin600 [0xA5, 0x10] [(0x0010, 0x99)]) = [.read 0x0600, .read 0x0601, .read 0x0010] := by decide

/-- Vector M2. -/
theorem test_mode_zeroPageX :
    regs (step ({ begin600 [0xB5, 0x10] [(0x0015, 0x77)] with x := 0x05 })) = some ⟨0x77, 0x05, 0x00, 0xFD, 0x24, 0x0602⟩ ∧
    stepAccesses (.ldaZpX 0x10) ({ begin600 [0xB5, 0x10] [(0x0015, 0x77)] with x := 0x05 }) = [.read 0x0600, .read 0x0601, .read 0x0015] := by decide

/-- Vector M3. -/
theorem test_mode_zeroPageY_wraps :
    regs (step ({ begin600 [0xB6, 0xF0] [(0x0010, 0x01)] with y := 0x20 })) = some ⟨0x00, 0x01, 0x20, 0xFD, 0x24, 0x0602⟩ ∧
    stepAccesses (.ldxZpY 0xF0) ({ begin600 [0xB6, 0xF0] [(0x0010, 0x01)] with y := 0x20 }) = [.read 0x0600, .read 0x0601, .read 0x0010] := by decide

/-- Vector M4. -/
theorem test_mode_absoluteX :
    regs (step ({ begin600 [0xBD, 0xF0, 0x12] [(0x1310, 0x01)] with x := 0x20 })) = some ⟨0x01, 0x20, 0x00, 0xFD, 0x24, 0x0603⟩ ∧
    stepAccesses (.ldaAbsX 0x12F0) ({ begin600 [0xBD, 0xF0, 0x12] [(0x1310, 0x01)] with x := 0x20 }) = [.read 0x0600, .read 0x0601, .read 0x0602, .read 0x1310] := by decide

/-- Vector M5. -/
theorem test_mode_absoluteX_wraps :
    regs (step ({ begin600 [0xBD, 0xF0, 0xFF] [(0x0010, 0x11)] with x := 0x20 })) = some ⟨0x11, 0x20, 0x00, 0xFD, 0x24, 0x0603⟩ ∧
    stepAccesses (.ldaAbsX 0xFFF0) ({ begin600 [0xBD, 0xF0, 0xFF] [(0x0010, 0x11)] with x := 0x20 }) = [.read 0x0600, .read 0x0601, .read 0x0602, .read 0x0010] := by decide

/-- Vector M7. -/
theorem test_mode_indirectX :
    regs (step ({ begin600 [0xA1, 0xFE] [(0x00FF, 0x00), (0x0000, 0x03), (0x0300, 0x5A)] with x := 0x01 })) = some ⟨0x5A, 0x01, 0x00, 0xFD, 0x24, 0x0602⟩ ∧
    stepAccesses (.ldaIndX 0xFE) ({ begin600 [0xA1, 0xFE] [(0x00FF, 0x00), (0x0000, 0x03), (0x0300, 0x5A)] with x := 0x01 }) = [.read 0x0600, .read 0x0601, .read 0x00FF, .read 0x0000, .read 0x0300] := by decide

/-- Vector M8. -/
theorem test_mode_indirectX_no_wrap :
    regs (step ({ begin600 [0xA1, 0xFE] [(0x00FF, 0x00), (0x0100, 0x04), (0x0400, 0x5B)] with x := 0x01, params := { Params.default with izxPtrWrap := false } })) = some ⟨0x5B, 0x01, 0x00, 0xFD, 0x24, 0x0602⟩ ∧
    stepAccesses (.ldaIndX 0xFE) ({ begin600 [0xA1, 0xFE] [(0x00FF, 0x00), (0x0100, 0x04), (0x0400, 0x5B)] with x := 0x01, params := { Params.default with izxPtrWrap := false } }) = [.read 0x0600, .read 0x0601, .read 0x00FF, .read 0x0100, .read 0x0400] := by decide

/-- Vector M9. -/
theorem test_mode_indirectY :
    regs (step ({ begin600 [0xB1, 0xFF] [(0x00FF, 0xFF), (0x0100, 0x00)] with y := 0x01 })) = some ⟨0x00, 0x00, 0x01, 0xFD, 0x26, 0x0602⟩ ∧
    stepAccesses (.ldaIndY 0xFF) ({ begin600 [0xB1, 0xFF] [(0x00FF, 0xFF), (0x0100, 0x00)] with y := 0x01 }) = [.read 0x0600, .read 0x0601, .read 0x00FF, .read 0x0100, .read 0x0100] := by decide

/-- Vector M10. -/
theorem test_mode_indirectY_wrap :
    regs (step ({ begin600 [0xB1, 0xFF] [(0x00FF, 0xFF), (0x0000, 0x10), (0x1100, 0x99)] with y := 0x01, params := { Params.default with izyPtrWrap := true } })) = some ⟨0x99, 0x00, 0x01, 0xFD, 0xA4, 0x0602⟩ ∧
    stepAccesses (.ldaIndY 0xFF) ({ begin600 [0xB1, 0xFF] [(0x00FF, 0xFF), (0x0000, 0x10), (0x1100, 0x99)] with y := 0x01, params := { Params.default with izyPtrWrap := true } }) = [.read 0x0600, .read 0x0601, .read 0x00FF, .read 0x0000, .read 0x1100] := by decide

/-- Vector M11. -/
theorem test_mode_immediate_at_top :
    regs (step (beginAt 0xFFFF [0xA9] [(0x0000, 0x33)])) = some ⟨0x33, 0x00, 0x00, 0xFD, 0x24, 0x0001⟩ ∧
    stepAccesses (.ldaImm 0x33) (beginAt 0xFFFF [0xA9] [(0x0000, 0x33)]) = [.read 0xFFFF, .read 0x0000] := by decide

/-! ## Faults (section 2.7) -/

/-- Vectors F1 and F2. -/
theorem test_unimplemented_faults : faultOf (step (begin600 [0x02] [])) = some (.unimplementedOpcode 0x02 0x0600) ∧
    faultOf (step (begin600 [0xFF] [])) = some (.unimplementedOpcode 0xFF 0x0600) := by decide

/-- Vectors F1 and F4 at the step port: PC is past the byte, the registers are as before, and a further request changes nothing. -/
theorem test_unimplemented_is_precise :
    stepPort { begin600 [0x02] [] with a := 0x01 } =
      { begin600 [0x02] [] with a := 0x01, pc := 0x0601, run := .faulted (.unimplementedOpcode 0x02 0x0600) } ∧
    stepPort (stepPort { begin600 [0x02] [] with a := 0x01 }) = stepPort { begin600 [0x02] [] with a := 0x01 } := by decide

/-! ## Oracle (section 3) -/

/-- Vector O1. -/
theorem test_oracle_o1 :
    regs (step ({ oracle600 [0xB5, 0x10] [(0x0015, 0x42)] [] with x := 0x05 })) = some ⟨0x42, 0x05, 0x00, 0xFD, 0x24, 0x0602⟩ := by decide

/-- Vector O2. -/
theorem test_oracle_o2 :
    faultOf (step ({ oracle600 [0xB5, 0x10] [(0x0014, 0x42), (0x0016, 0x00)] [] with x := 0x05 })) = some (.readUndeclared 0x0015) := by decide

/-- Vector O3. -/
theorem test_oracle_o3 :
    regs (step ({ oracle600 [0x85, 0x10] [] [(0x0010, 0x05)] with a := 0x05 })) = some ⟨0x05, 0x00, 0x00, 0xFD, 0x24, 0x0602⟩ := by decide

/-- Vector O4. -/
theorem test_oracle_o4 :
    faultOf (step ({ oracle600 [0x85, 0x10] [] [(0x0010, 0x06)] with a := 0x05 })) = some (.writeMismatch 0x0010 0x06 0x05) := by decide

/-- Vector O5. -/
theorem test_oracle_o5 :
    faultOf (step ({ oracle600 [0x85, 0x10] [] [] with a := 0x05 })) = some (.writeUndeclared 0x0010 0x05) := by decide

/-- Vector O6. -/
theorem test_oracle_o6 :
    faultOf (step (oracle600 [] [] [])) = some (.readUndeclared 0x0600) := by decide

/-- Vector O7. -/
theorem test_oracle_o7 :
    regs (step (oracle600 [0xE6, 0x10] [(0x0010, 0x41)] [(0x0010, 0x42)])) = some ⟨0x00, 0x00, 0x00, 0xFD, 0x24, 0x0602⟩ := by decide

/-- Vector O8. -/
theorem test_oracle_o8 :
    regs (step (oracle600 [0xB1, 0x10] [(0x0010, 0x10), (0x0011, 0x00)] [])) = some ⟨0x10, 0x00, 0x00, 0xFD, 0x24, 0x0602⟩ := by decide

/-- Vector O9. -/
theorem test_oracle_o9 :
    faultOf (step (withParams (fun q => { q with readPolicy := .consumeOnce }) (oracle600 [0xB1, 0x10] [(0x0010, 0x10), (0x0011, 0x00)] []))) = some (.readUndeclared 0x0010) := by decide

/-- Vector O10. -/
theorem test_oracle_o10 :
    faultOf (step (withParams (fun q => { q with requireWrites := true }) (oracle600 [0xA9, 0x05] [] [(0x0010, 0x05)]))) = some (.writeMissing 0x0010 0x05) := by decide

/-- Vector O11. -/
theorem test_oracle_o11 :
    regs (step (oracle600 [0xA9, 0x05] [] [(0x0010, 0x05)])) = some ⟨0x05, 0x00, 0x00, 0xFD, 0x24, 0x0602⟩ := by decide

/-- Vector O12. -/
theorem test_oracle_o12 :
    regs (step (oracle600 [0x20, 0x00, 0x07] [] [(0x01FD, 0x06), (0x01FC, 0x02)])) = some ⟨0x00, 0x00, 0x00, 0xFB, 0x24, 0x0700⟩ := by decide

/-- Vector O13. -/
theorem test_oracle_o13 :
    faultOf (step (oracle600 [0x20, 0x00, 0x07] [] [(0x01FD, 0x02), (0x01FC, 0x06)])) = some (.writeMismatch 0x01FD 0x02 0x06) := by decide

/-- Vector O14. -/
theorem test_oracle_o14 :
    faultOf (step (oracle600 [0x02] [] [])) = some (.unimplementedOpcode 0x02 0x0600) := by decide

/-- Vector O15. -/
theorem test_oracle_o15 :
    regs (step (oracle600 [0x00] [(0xFFFE, 0x00), (0xFFFF, 0x80)] [(0x01FD, 0x06), (0x01FC, 0x02), (0x01FB, 0x34)])) = some ⟨0x00, 0x00, 0x00, 0xFA, 0x24, 0x8000⟩ := by decide

/-- Vector O16. -/
theorem test_oracle_o16 :
    regs (step (oracle600 [0x6C, 0xFF, 0x02] [(0x02FF, 0x34), (0x0200, 0x12)] [])) = some ⟨0x00, 0x00, 0x00, 0xFD, 0x24, 0x1234⟩ := by decide

/-- Vector O17. -/
theorem test_oracle_o17 :
    faultOf (step (oracle600 [0x6C, 0xFF, 0x02] [(0x02FF, 0x34), (0x0300, 0x12)] [])) = some (.readUndeclared 0x0200) := by decide

/-! ## Witnesses: states and operands that meet the hypotheses of the obligations, a clause each -/

/-- The bytes of an instruction at PC, at the top of memory too: FlatStepRunsTheInstructionAtPC. -/
theorem witness_FlatStepRunsTheInstructionAtPC :
    (let s := beginAt 0xFFFF [0xA9, 0x33] []
     s.run = .running ∧ s.params.backend = .flat ∧ Instr.wf (.ldaImm 0x33) = true ∧
      instrOpcode (.ldaImm 0x33) ∈ s.params.implemented ∧
      ∀ k v, (encode (.ldaImm 0x33))[k]? = some v → s.mem.byteAt (s.pc + BitVec.ofNat 16 k) = v) ∧
    (let s := begin600 [0x02] []
     s.run = .running ∧ s.params.backend = .flat ∧ Instr.wf (.unimplemented 0x02) = true ∧
      Instr.unimplemented 0x02 = .unimplemented (instrOpcode (.unimplemented 0x02)) ∧
      ∀ k v, (encode (.unimplemented 0x02))[k]? = some v → s.mem.byteAt (s.pc + BitVec.ofNat 16 k) = v) := by
  refine ⟨⟨rfl, rfl, by decide, by decide, ?_⟩, ⟨rfl, rfl, by decide, rfl, ?_⟩⟩ <;> intro k v h
  · rcases k with _ | _ | k <;> simp [encode, enc1] at h <;> subst h <;> decide
  · rcases k with _ | k
    · simp [encode, enc0] at h
      subst h
      decide
    · simp [encode, enc0] at h

theorem witness_DecodingInvertsEncoding : Instr.wf (.jmpInd 0xFFFF) = true ∧ Instr.wf (.unimplemented 0xFF) = true := by
  decide

theorem witness_EncodingInvertsDecoding : decode [0xA9, 0x05, 0x85] = .ok (.ldaImm 0x05, [0x85]) := by decide

theorem witness_UnimplementedBytesAreTheRest : 0x02 ∈ unimplementedBytes ∧ 0xA9 ∈ documentedOpcodes := by
  decide +kernel

theorem witness_OpcodeMapIsConsistent : opcodeTable.length = 151 := by decide +kernel

theorem witness_StepRunsTheFetchedInstruction :
    (begin600 [0xE8] []).run = .running ∧
    fetchInstr (begin600 [0xE8] []) = .ok (.inx, { begin600 [0xE8] [] with pc := 0x0601 }) := ⟨rfl, rfl⟩

/-- A documented and implemented byte, one outside `IMPLEMENTED_OPCODES`, and one that the parameter names but no rule
documents. -/
theorem witness_FlatStepIsTotal :
    (let s := begin600 [0xE8] []
     s.run = .running ∧ s.params.backend = .flat ∧ s.mem.byteAt s.pc ∈ s.params.implemented ∧
      s.mem.byteAt s.pc ∈ documentedOpcodes) ∧
    (let s := begin600 [0x02] []
     s.run = .running ∧ s.params.backend = .flat ∧ s.mem.byteAt s.pc ∉ s.params.implemented) ∧
    (let s := withParams (fun q => { q with implemented := [0x02] }) (begin600 [0x02] [])
     s.run = .running ∧ s.params.backend = .flat ∧ s.mem.byteAt s.pc ∈ s.params.implemented ∧
      s.mem.byteAt s.pc ∉ documentedOpcodes) := by decide

theorem witness_FaultIsFinal :
    ((begin600 [0x02] []).run = .running ∧ step (begin600 [0x02] []) = .fault (.unimplementedOpcode 0x02 0x0600)) ∧
    (stepPort (begin600 [0x02] [])).run = .faulted (.unimplementedOpcode 0x02 0x0600) := ⟨⟨rfl, rfl⟩, by decide⟩

theorem witness_UnimplementedOpcodeIsPrecise :
    (begin600 [0x02] []).run = .running ∧ (begin600 [0x02] []).params.backend = .flat ∧
    (begin600 [0x02] []).mem.byteAt 0x0600 ∉ (begin600 [0x02] []).params.implemented ∧
    (oracle600 [0x02] [] []).run = .running ∧ (oracle600 [0x02] [] []).params.backend = .oracle ∧
    tableGet 0x0600 (oracle600 [0x02] [] []).oracle.expRead = some (0x02, true) ∧
    0x02 ∉ (oracle600 [0x02] [] []).params.implemented ∧
    (∀ v, tableGet 0x0600 (oracle600 [] [] []).oracle.expRead ≠ some (v, true)) := by decide

/-- Vector O14 at the step port: A, X, Y, SP and P as before (spec/60_exceptions.md R302). -/
theorem test_oracle_o14_is_precise :
    stepPort (oracle600 [0x02] [] []) = { State.reset with
      pc := 0x0601, run := .faulted (.unimplementedOpcode 0x02 0x0600)
      params := { Params.default with backend := .oracle } } := rfl

/-- A launch from a faulted state is running (spec/10_state.md R36). -/
theorem test_launch_is_running :
    (verificationLaunch (stepPort (begin600 [0x02] [])) [] []).run = .running := by decide

theorem witness_FaultLeavesMemoryAlone :
    (step (begin600 [0x02] []) = .fault (.unimplementedOpcode 0x02 0x0600) ∧ (begin600 [0x02] []).run = .running) ∧
    (oracle600 [] [] []).params.backend = .oracle ∧ (oracle600 [] [] []).run = .running ∧
    step (oracle600 [] [] []) = .fault (.readUndeclared 0x0600) := ⟨⟨rfl, rfl⟩, rfl, rfl, rfl⟩

theorem witness_FreshStateFollowsReset :
    Params.default.entryMode = .entryPC 0x0000 ∧
    ({ Params.default with entryMode := .resetVector } : Params).entryMode = .resetVector := ⟨rfl, rfl⟩

theorem witness_StepKeepsTheInvariant :
    (begin600 [0x85, 0x10] []).Inv ∧
    step (begin600 [0x85, 0x10] []) = .next { begin600 [0x85, 0x10] [] with
      mem := (begin600 [0x85, 0x10] []).mem.setByte 0x0010 0x00, pc := 0x0602 } := ⟨⟨by decide, by decide, rfl⟩, rfl⟩

theorem witness_StepLeavesTheRestAlone :
    (∃ t, step (begin600 [0xE8] []) = .next t ∧ (begin600 [0xE8] []).params.backend = .flat) ∧
    ∃ t, step (oracle600 [0xE8] [] []) = .next t ∧ (oracle600 [0xE8] [] []).params.backend = .oracle :=
  ⟨⟨_, rfl, rfl⟩, ⟨_, rfl, rfl⟩⟩

theorem witness_FlatMemoryRoundTrips : State.reset.params.backend = .flat := rfl

/-- The word 0x1234 at 0xFFFF: its high byte goes to and comes from 0x0000 (spec/20_memory.md R53, R54, R63). -/
theorem test_word_at_top :
    writeWord 0xFFFF 0x1234 State.reset = .ok { State.reset with mem := [(0x0000, 0x12), (0xFFFF, 0x34)] } ∧
    (let s := { State.reset with mem := [(0x0000, 0x12), (0xFFFF, 0x34)] }
     readWord 0xFFFF s = .ok (0x1234, s)) := ⟨rfl, rfl⟩

theorem witness_MemoryUnitHonoursTheControlLines :
    (⟨0xFFFF, 0x12, 0b00⟩ : BusLines).ctrl = 0b00 ∧ (⟨0xFFFF, 0x12, 0b01⟩ : BusLines).ctrl = 0b01 ∧
    (⟨0xFFFF, 0x12, 0b10⟩ : BusLines).ctrl = 0b10 ∧ (⟨0xFFFF, 0x12, 0b11⟩ : BusLines).ctrl = 0b11 := ⟨rfl, rfl, rfl, rfl⟩

/-- No expectation, a spent one and a live one, under each policy. -/
theorem witness_OracleReadFollowsItsExpectation :
    (oracle600 [] [(0xFFFF, 0x42)] []).params.backend = .oracle ∧
    (∀ v, tableGet 0 (oracle600 [] [(0xFFFF, 0x42)] []).oracle.expRead ≠ some (v, true)) ∧
    (∀ v, tableGet 0 [(0, ((0x42 : Byte), false))] ≠ some (v, true)) ∧
    tableGet 0xFFFF (oracle600 [] [(0xFFFF, 0x42)] []).oracle.expRead = some (0x42, true) ∧
    (oracle600 [] [] []).params.readPolicy = .persistent ∧
    (withParams (fun q => { q with readPolicy := .consumeOnce }) (oracle600 [] [] [])).params.readPolicy = .consumeOnce := by
  decide

theorem witness_OracleWriteFollowsItsExpectation :
    (oracle600 [] [] [(0xFFFF, 0x42)]).params.backend = .oracle ∧
    tableGet 0 (oracle600 [] [] [(0xFFFF, 0x42)]).oracle.expWrite = none ∧
    tableGet 0xFFFF (oracle600 [] [] [(0xFFFF, 0x42)]).oracle.expWrite = some 0x42 ∧ (0x42 : Byte) ≠ 0x41 := by decide

/-- A word at the top of memory: its high byte is at 0x0000. -/
theorem witness_RegistrationSetsOneExpectation :
    (setReadWordTarget 0xFFFF 0x1234 Oracle.empty).expRead = [(0x0000, (0x12, true)), (0xFFFF, (0x34, true))] := by decide

/-- An oracle whose expectations are the memory's bytes: `STA $10` at 0x0600 with 0x0010 registered or not. -/
def agreeing (w : List (Nat × Byte)) : State :=
  { oracle600 [0x85, 0x10] [] [] with
    mem := (begin600 [0x85, 0x10] []).mem
    oracle := { (oracle600 [0x85, 0x10] [] []).oracle with expWrite := w } }

theorem agreeing_agrees (w : List (Nat × Byte)) (a : Addr) (v : Byte) :
    tableGet a.toNat (agreeing w).oracle.expRead = some (v, true) → v = (agreeing w).mem.byteAt a := by
  show tableGet a.toNat [(0x0600, (0x85, true)), (0x0601, (0x10, true))] = _ →
    v = Memory.byteAt [(0x0600, 0x85), (0x0601, 0x10)] a
  simp only [tableGet, Memory.byteAt]
  split
  · simp_all
  · split <;> simp_all

/-- One that completes and one that faults. -/
theorem witness_AccessListDecidesTheVerdict :
    (∀ w, (agreeing w).params.backend = .oracle) ∧ (∀ op, Instr.staZp 0x10 ≠ .unimplemented op) ∧
    (∃ o, checkAccesses .persistent (accesses (.staZp 0x10) (agreeing [(0x0010, 0x00)])) (agreeing [(0x0010, 0x00)]).oracle
      = .ok o) ∧
    checkAccesses .persistent (accesses (.staZp 0x10) (agreeing [])) (agreeing []).oracle
      = .error (.writeUndeclared 0x0010 0x00) :=
  ⟨fun _ => rfl, nofun, ⟨_, rfl⟩, rfl⟩

/-- The three outcomes: a violation, an unperformed write, a completed step. -/
theorem witness_StepAccessListDecidesTheStep :
    (∀ w, (agreeing w).run = .running ∧ (agreeing w).params.backend = .oracle) ∧
    (∃ t, fetchInstr { agreeing [] with params := { (agreeing []).params with backend := .flat } } =
      .ok (.staZp 0x10, t)) ∧
    faultOf (step (agreeing [])) = some (.writeUndeclared 0x0010 0x00) ∧
    faultOf (step (withParams (fun q => { q with requireWrites := true }) (agreeing [(0x0010, 0x00), (0x0011, 0x07)]))) =
      some (.writeMissing 0x0011 0x07) ∧
    regs (step (agreeing [(0x0010, 0x00)])) = some ⟨0x00, 0x00, 0x00, 0xFD, 0x24, 0x0602⟩ :=
  ⟨fun _ => ⟨rfl, rfl⟩, ⟨_, rfl⟩, by decide, by decide, by decide⟩

theorem witness_OracleStepRefinesFlatStep :
    (agreeing [(0x0010, 0x00)]).params.backend = .oracle ∧ ∃ t, step (agreeing [(0x0010, 0x00)]) = .next t :=
  ⟨rfl, _, rfl⟩

/-- A registered write that is performed, nothing registered, and two writes missing of which the lower is reported. -/
theorem witness_UnperformedWriteIsReportedLowestFirst :
    (let s := withParams (fun q => { q with requireWrites := true }) (oracle600 [0xE8] [] [(0x0010, 0x05), (0xFFFF, 0x06)])
     s.run = .running ∧ s.params.backend = .oracle ∧ s.Inv ∧ s.params.requireWrites = true ∧
      (∃ t u, fetchInstr s = .ok (.inx, t) ∧ exec .inx t = .next u ∧ tableGet 0x0010 u.oracle.expWrite = some 0x05 ∧
        tableGet 0x0010 u.oracle.performed = none) ∧
      faultOf (step s) = some (.writeMissing 0x0010 0x05)) ∧
    (let s := oracle600 [0xE8] [] []
     s.run = .running ∧ s.params.backend = .oracle ∧ s.Inv ∧ s.params.requireWrites = false ∧
      (∃ t u, fetchInstr s = .ok (.inx, t) ∧ exec .inx t = .next u ∧ u.oracle.expWrite = [])) ∧
    (let s := withParams (fun q => { q with requireWrites := true }) (oracle600 [0x85, 0x10] [] [(0x0010, 0x00)])
     s.run = .running ∧ s.params.backend = .oracle ∧ s.Inv ∧ s.params.requireWrites = true ∧
      (∃ t u, fetchInstr s = .ok (.staZp 0x10, t) ∧ exec (.staZp 0x10) t = .next u ∧
        u.oracle.expWrite = [(0x0010, 0x00)] ∧ u.oracle.performed = [(0x0010, ())])) :=
  ⟨⟨rfl, rfl, ⟨by decide, by decide, rfl⟩, rfl, ⟨_, _, rfl, rfl, by decide, by decide⟩, by decide⟩,
    ⟨rfl, rfl, ⟨by decide, by decide, rfl⟩, rfl, ⟨_, _, rfl, rfl, rfl⟩⟩,
    ⟨rfl, rfl, ⟨by decide, by decide, rfl⟩, rfl, ⟨_, _, rfl, rfl, rfl, rfl⟩⟩⟩

/-- Two oracles that differ away from the list. -/
theorem witness_VerdictIgnoresOtherExpectations :
    (∀ a, Access.read a ∈ [Access.read 0x0010, .write 0x0011 0x05] →
      tableGet a.toNat (setReadTarget 0x0010 0x01 Oracle.empty).expRead =
        tableGet a.toNat (setReadTarget 0x0020 0x02 (setReadTarget 0x0010 0x01 Oracle.empty)).expRead) ∧
    (∀ a v, Access.write a v ∈ [Access.read 0x0010, .write 0x0011 0x05] →
      tableGet a.toNat (setWriteTarget 0x0011 0x05 Oracle.empty).expWrite =
        tableGet a.toNat (setWriteTarget 0x0020 0x02 (setWriteTarget 0x0011 0x05 Oracle.empty)).expWrite) := by
  constructor
  · intro a h
    obtain rfl : a = 0x0010 := by simpa using h
    decide
  · intro a v h
    obtain ⟨rfl, rfl⟩ : a = 0x0011 ∧ v = 0x05 := by simpa using h
    decide

/-- Each kind of read, under the flat backend and under the persistent oracle. -/
theorem witness_ReadingChangesNothingElse :
    (∃ l t, resolve (.indirectX 0xFE) (begin600 [] [(0x00FE, 0x00), (0x00FF, 0x02)]) = .ok (l, t)) ∧
    (∃ v t, readSource (.loc (.zeroPage 0x10)) (oracle600 [] [(0x0010, 0x42)] []) = .ok (v, t)) ∧
    (∃ w t, indirectTarget 0x02FF (begin600 [] [(0x02FF, 0x34), (0x0200, 0x12)]) = .ok (w, t)) ∧
    State.reset.params.backend = .flat ∧ (oracle600 [] [] []).params.readPolicy = .persistent :=
  ⟨⟨_, _, rfl⟩, ⟨_, _, rfl⟩, ⟨_, _, rfl⟩, rfl, rfl⟩

/-- The pointer at 0x00FF, whose high byte is at 0x0000 with the wrap and at 0x0100 without it. -/
theorem witness_IndirectXReadsItsPointer :
    (let s := { begin600 [] [(0x00FF, 0x34), (0x0000, 0x12)] with x := 0x01 }
     readByte (BitVec.ofNat 16 ((0xFE + s.x.toNat) % 256)) s = .ok (0x34, s) ∧ s.params.izxPtrWrap = true ∧
      readByte (BitVec.ofNat 16 (((0xFE + s.x.toNat) % 256 + 1) % 256)) s = .ok (0x12, s)) ∧
    (let s := withParams (fun q => { q with izxPtrWrap := false })
        { begin600 [] [(0x00FF, 0x34), (0x0100, 0x12)] with x := 0x01 }
     readByte (BitVec.ofNat 16 ((0xFE + s.x.toNat) % 256)) s = .ok (0x34, s) ∧ s.params.izxPtrWrap = false ∧
      readByte (BitVec.ofNat 16 ((0xFE + s.x.toNat) % 256 + 1)) s = .ok (0x12, s)) :=
  ⟨⟨rfl, rfl, rfl⟩, ⟨rfl, rfl, rfl⟩⟩

theorem witness_IndirectYAddsYToItsPointer :
    (let s := begin600 [] [(0x00FF, 0x34), (0x0100, 0x12)]
     readByte (BitVec.ofNat 16 0xFF) s = .ok (0x34, s) ∧ s.params.izyPtrWrap = false ∧
      readByte (BitVec.ofNat 16 (0xFF + 1)) s = .ok (0x12, s)) ∧
    (let s := withParams (fun q => { q with izyPtrWrap := true }) (begin600 [] [(0x00FF, 0x34), (0x0000, 0x12)])
     readByte (BitVec.ofNat 16 0xFF) s = .ok (0x34, s) ∧ s.params.izyPtrWrap = true ∧
      readByte (BitVec.ofNat 16 ((0xFF + 1) % 256)) s = .ok (0x12, s)) := ⟨⟨rfl, rfl, rfl⟩, ⟨rfl, rfl, rfl⟩⟩

theorem witness_FlatOperandsAreAlwaysReadable :
    State.reset.params.backend = .flat ∧ (∃ a, flatEa (.indirectY 0xFF) State.reset = some a) ∧
    flatEa .accumulator State.reset = none := ⟨rfl, ⟨_, rfl⟩, rfl⟩

/-- An operand that is fetched, and one that is read under the oracle. -/
theorem witness_LoadsSetTheRegisterAndZN :
    (.ldaImm 0x10, .immediate 0x10) ∈ ldaForms 0x10 0x1234 ∧
    (.ldaZp 0x10, .loc (.zeroPage 0x10)) ∈ ldaForms 0x10 0x1234 ∧
    (.ldxImm 0x10, .immediate 0x10) ∈ ldxForms 0x10 0x1234 ∧
    (.ldxZp 0x10, .loc (.zeroPage 0x10)) ∈ ldxForms 0x10 0x1234 ∧
    (.ldyImm 0x10, .immediate 0x10) ∈ ldyForms 0x10 0x1234 ∧
    (.ldyZp 0x10, .loc (.zeroPage 0x10)) ∈ ldyForms 0x10 0x1234 ∧
    readSource (.immediate 0x10) State.reset = .ok (0x10, State.reset) ∧
    (let s := oracle600 [] [(0x0010, 0x80)] []
     readSource (.loc (.zeroPage 0x10)) s = .ok (0x80, s)) :=
  ⟨by decide, by decide, by decide, by decide, by decide, by decide, rfl, rfl⟩

/-- The flat backend, and the oracle with the write registered, not registered, and registered with another value. -/
theorem witness_StoresWriteOneByte :
    (.staZp 0x10, .zeroPage 0x10) ∈ staForms 0x10 0x1234 ∧ (.stxZp 0x10, .zeroPage 0x10) ∈ stxForms 0x10 0x1234 ∧
    (.styZp 0x10, .zeroPage 0x10) ∈ styForms 0x10 0x1234 ∧
    (∀ s, resolve (.zeroPage 0x10) s = .ok (.mem 0x0010, s)) ∧ State.reset.params.backend = .flat ∧
    (oracle600 [] [] []).params.backend = .oracle ∧
    tableGet 0x0010 (oracle600 [] [] [(0x0010, 0x00)]).oracle.expWrite = some (oracle600 [] [] []).a ∧
    tableGet 0x0010 (oracle600 [] [] []).oracle.expWrite = none ∧
    tableGet 0x0010 (oracle600 [] [] [(0x0010, 0x01)]).oracle.expWrite = some 0x01 ∧
    (0x01 : Byte) ≠ (oracle600 [] [] []).a :=
  ⟨by decide, by decide, by decide, fun _ => rfl, rfl, rfl, rfl, rfl, rfl, by decide⟩

theorem witness_AdcAddsWithCarry :
    (.adcImm 0x10, .immediate 0x10) ∈ adcForms 0x10 0x1234 ∧
    (.adcZp 0x10, .loc (.zeroPage 0x10)) ∈ adcForms 0x10 0x1234 ∧
    readSource (.immediate 0x10) State.reset = .ok (0x10, State.reset) ∧
    (let s := oracle600 [] [(0x0010, 0x80)] []
     readSource (.loc (.zeroPage 0x10)) s = .ok (0x80, s)) :=
  ⟨by decide, by decide, rfl, rfl⟩

theorem witness_SbcSubtractsWithBorrow :
    (.sbcImm 0x10, .immediate 0x10) ∈ sbcForms 0x10 0x1234 ∧
    (.sbcZp 0x10, .loc (.zeroPage 0x10)) ∈ sbcForms 0x10 0x1234 ∧
    readSource (.immediate 0x10) State.reset = .ok (0x10, State.reset) ∧
    (let s := oracle600 [] [(0x0010, 0x80)] []
     readSource (.loc (.zeroPage 0x10)) s = .ok (0x80, s)) :=
  ⟨by decide, by decide, rfl, rfl⟩

/-- A form that completes and one that faults. -/
theorem witness_DecimalFlagDoesNotChangeAddition :
    (.adcImm 0x10, .immediate 0x10) ∈ adcForms 0x10 0x1234 ++ sbcForms 0x10 0x1234 ∧
    (∃ t, exec (.adcImm 0x10) State.reset = .next t) ∧
    exec (.sbcZp 0x10) (oracle600 [] [] []) = .fault (.readUndeclared 0x0010) := ⟨by decide, ⟨_, rfl⟩, rfl⟩

theorem witness_LogicIsBitwise :
    (.andImm 0x10, .immediate 0x10) ∈ andForms 0x10 0x1234 ∧
    (.andZp 0x10, .loc (.zeroPage 0x10)) ∈ andForms 0x10 0x1234 ∧
    (.oraImm 0x10, .immediate 0x10) ∈ oraForms 0x10 0x1234 ∧
    (.oraZp 0x10, .loc (.zeroPage 0x10)) ∈ oraForms 0x10 0x1234 ∧
    (.eorImm 0x10, .immediate 0x10) ∈ eorForms 0x10 0x1234 ∧
    (.eorZp 0x10, .loc (.zeroPage 0x10)) ∈ eorForms 0x10 0x1234 ∧
    readSource (.immediate 0x10) State.reset = .ok (0x10, State.reset) ∧
    (let s := oracle600 [] [(0x0010, 0x80)] []
     readSource (.loc (.zeroPage 0x10)) s = .ok (0x80, s)) :=
  ⟨by decide, by decide, by decide, by decide, by decide, by decide, rfl, rfl⟩

theorem witness_ComparesSetCZN :
    (.cmpImm 0x10, .immediate 0x10) ∈ cmpForms 0x10 0x1234 ∧
    (.cmpZp 0x10, .loc (.zeroPage 0x10)) ∈ cmpForms 0x10 0x1234 ∧
    (.cpxImm 0x10, .immediate 0x10) ∈ cpxForms 0x10 0x1234 ∧
    (.cpxZp 0x10, .loc (.zeroPage 0x10)) ∈ cpxForms 0x10 0x1234 ∧
    (.cpyImm 0x10, .immediate 0x10) ∈ cpyForms 0x10 0x1234 ∧
    (.cpyZp 0x10, .loc (.zeroPage 0x10)) ∈ cpyForms 0x10 0x1234 ∧
    readSource (.immediate 0x10) State.reset = .ok (0x10, State.reset) ∧
    (let s := oracle600 [] [(0x0010, 0x80)] []
     readSource (.loc (.zeroPage 0x10)) s = .ok (0x80, s)) :=
  ⟨by decide, by decide, by decide, by decide, by decide, by decide, rfl, rfl⟩

theorem witness_BitCopiesBitsOfMemory :
    (.bitAbs 0x1234, .loc (.absolute 0x1234)) ∈ bitForms 0x10 0x1234 ∧
    (.bitZp 0x10, .loc (.zeroPage 0x10)) ∈ bitForms 0x10 0x1234 ∧
    (let s := oracle600 [] [(0x0010, 0x80)] []
     readSource (.loc (.zeroPage 0x10)) s = .ok (0x80, s)) :=
  ⟨by decide, by decide, rfl⟩

/-- The flat backend, and the oracle with the read live and the write registered. -/
theorem witness_ShiftsMoveOneBit :
    (.aslZp 0x10, .zeroPage 0x10) ∈ aslForms 0x10 0x1234 ∧
    (.lsrZp 0x10, .zeroPage 0x10) ∈ lsrForms 0x10 0x1234 ∧
    (.rolZp 0x10, .zeroPage 0x10) ∈ rolForms 0x10 0x1234 ∧
    (.rorZp 0x10, .zeroPage 0x10) ∈ rorForms 0x10 0x1234 ∧
    (∀ s, resolve (.zeroPage 0x10) s = .ok (.mem 0x0010, s)) ∧ State.reset.params.backend = .flat ∧
    (let s := oracle600 [] [(0x0010, 0x81)] [(0x0010, 0x02)]
     s.params.backend = .oracle ∧ readByte 0x0010 s = .ok (0x81, s) ∧
      tableGet 0x0010 s.oracle.expWrite = some (BitVec.ofNat 8 (0x81 * 2))) :=
  ⟨by decide, by decide, by decide, by decide, fun _ => rfl, rfl, rfl, rfl, rfl⟩

/-- The flat backend, and the oracle with the read live and the write registered. -/
theorem witness_IncDecOfMemory :
    (.incZp 0x10, .zeroPage 0x10) ∈ incForms 0x10 0x1234 ∧
    (.decZp 0x10, .zeroPage 0x10) ∈ decForms 0x10 0x1234 ∧
    (∀ s, resolve (.zeroPage 0x10) s = .ok (.mem 0x0010, s)) ∧ State.reset.params.backend = .flat ∧
    (let s := oracle600 [] [(0x0010, 0x81)] [(0x0010, 0x82)]
     s.params.backend = .oracle ∧ readByte 0x0010 s = .ok (0x81, s) ∧
      tableGet 0x0010 s.oracle.expWrite = some (BitVec.ofNat 8 (0x81 + 1))) :=
  ⟨by decide, by decide, fun _ => rfl, rfl, rfl, rfl, rfl⟩

/-- A pointer at the end of a page, one that is not, and the last address. -/
theorem witness_JumpsSetPC :
    (let s := begin600 [] [(0x02FF, 0x34), (0x0200, 0x12)]
     readByte 0x02FF s = .ok (0x34, s) ∧ readByte (0x02FF - 255) s = .ok (0x12, s)) ∧
    (let s := begin600 [] [(0x0200, 0x34), (0x0201, 0x12)]
     readByte 0x0200 s = .ok (0x34, s) ∧ readByte (0x0200 + 1) s = .ok (0x12, s)) ∧
    (let s := begin600 [] [(0xFFFF, 0x34), (0xFF00, 0x12)]
     readByte 0xFFFF s = .ok (0x34, s) ∧ readByte (0xFFFF - 255) s = .ok (0x12, s)) :=
  ⟨⟨rfl, rfl⟩, ⟨rfl, rfl⟩, ⟨rfl, rfl⟩⟩

/-- JSR, RTS, BRK and RTI ask for the flat backend alone. -/
theorem witness_JsrPushesTheReturnAddress : { State.reset with sp := 0x00 }.params.backend = .flat := rfl

theorem witness_RtsPullsAndAddsOne : { State.reset with sp := 0xFF }.params.backend = .flat := rfl

theorem witness_BrkTakesTheTrap : { State.reset with sp := 0x01 }.params.backend = .flat := rfl

theorem witness_RtiLoadsPAndPC : { State.reset with sp := 0xFE }.params.backend = .flat := rfl

theorem witness_RtsReturnsFromJsr :
    ∃ u t, State.reset.params.backend = .flat ∧ exec (.jsr 0x1234) State.reset = .next u ∧
      t = { u with a := 0x42, pc := 0x0000 } ∧ t.params = u.params ∧ t.mem = u.mem ∧ t.sp = u.sp :=
  ⟨_, _, rfl, rfl, rfl, rfl, rfl, rfl⟩

theorem witness_RtiReturnsFromBrk :
    ∃ u t, State.reset.params.backend = .flat ∧ exec .brk State.reset = .next u ∧
      t = { u with a := 0x42, pc := 0x0000 } ∧ t.params = u.params ∧ t.mem = u.mem ∧ t.sp = u.sp :=
  ⟨_, _, rfl, rfl, rfl, rfl, rfl, rfl⟩

theorem witness_PushesWriteOneByte :
    State.reset.params.backend = .flat ∧ (oracle600 [] [] []).params.backend = .oracle ∧
    tableGet 0x01FD (oracle600 [] [] [(0x01FD, 0x34)]).oracle.expWrite =
      some ((oracle600 [] [] []).p.toByte ||| 0x30) ∧
    tableGet 0x01FD (oracle600 [] [] []).oracle.expWrite = none ∧
    tableGet 0x01FD (oracle600 [] [] [(0x01FD, 0x01)]).oracle.expWrite = some 0x01 ∧
    (0x01 : Byte) ≠ (oracle600 [] [] []).a := by decide

/-- The pull that wraps SP. -/
theorem witness_PullsReadOneByte :
    (let s := { begin600 [] [(0x0100, 0x80)] with sp := 0xFF }
     readByte (page1 (s.sp + 1)) s = .ok (0x80, s)) := rfl

/-- Each register changes under an instruction of its list. -/
theorem witness_OnlyListedInstructionsWriteARegister :
    (∃ t, exec .txs State.reset = .next t ∧ t.sp ≠ State.reset.sp) ∧
    (∃ t, exec (.ldaImm 0x01) State.reset = .next t ∧ t.a ≠ State.reset.a) ∧
    (∃ t, exec .rolA { State.reset with a := 0x01 } = .next t ∧ t.a ≠ 0x01) ∧
    (∃ t, exec .inx State.reset = .next t ∧ t.x ≠ State.reset.x) ∧
    (∃ t, exec .dey State.reset = .next t ∧ t.y ≠ State.reset.y) :=
  ⟨⟨_, rfl, by decide⟩, ⟨_, rfl, by decide⟩, ⟨_, rfl, by decide⟩, ⟨_, rfl, by decide⟩, ⟨_, rfl, by decide⟩⟩

theorem witness_OnlyListedInstructionsWriteAFlag :
    (∃ t, exec .sec State.reset = .next t ∧ t.p.c ≠ State.reset.p.c) ∧
    (∃ t, exec .tax State.reset = .next t ∧ t.p.z ≠ State.reset.p.z) ∧
    (∃ t, exec .dex State.reset = .next t ∧ t.p.n ≠ State.reset.p.n) ∧
    (∃ t, exec .cli State.reset = .next t ∧ t.p.i ≠ State.reset.p.i) ∧
    (∃ t, exec .sed State.reset = .next t ∧ t.p.d ≠ State.reset.p.d) ∧
    (∃ t, exec (.adcImm 0x7F) { State.reset with a := 0x01 } = .next t ∧ t.p.v ≠ State.reset.p.v) :=
  ⟨⟨_, rfl, by decide⟩, ⟨_, rfl, by decide⟩, ⟨_, rfl, by decide⟩, ⟨_, rfl, by decide⟩, ⟨_, rfl, by decide⟩,
    ⟨_, rfl, by decide⟩⟩

theorem witness_OnlyListedInstructionsWritePCOrMemory :
    (∃ t, exec (.jmpAbs 0x1234) State.reset = .next t ∧ t.pc ≠ State.reset.pc) ∧
    (∃ t, exec .pha State.reset = .next t ∧ t.mem ≠ State.reset.mem) := ⟨⟨_, rfl, by decide⟩, ⟨_, rfl, by decide⟩⟩

/-- Program P1 of spec/95_test_vectors.md section 4. -/
theorem witness_RunEndIsUnique : ∃ t, EndsWell 0x0004 (beginAt 0x0000 [0xA9, 0x05, 0x85, 0x10] []) t :=
  ⟨{ beginAt 0x0000 [0xA9, 0x05, 0x85, 0x10] [(0x0010, 0x05)] with a := 0x05, pc := 0x0004 }, 2, by decide +kernel⟩

/-! ## Witnesses of the clauses about violations -/

/-- A read that is not declared: in an operand, in a mode's pointer (either byte), in JMP's pointer (either byte), in a pull and
in a read-modify-write. -/
theorem witness_ReadViolations :
    readSource (.loc (.zeroPage 0x10)) (oracle600 [] [] []) = .error (.readUndeclared 0x0010) ∧
    resolve (.indirectX 0x10) (oracle600 [] [] []) = .error (.readUndeclared 0x0010) ∧
    resolve (.indirectY 0xFF) (oracle600 [] [(0x00FF, 0x34)] []) = .error (.readUndeclared 0x0100) ∧
    (let s := oracle600 [] [(0x02FF, 0x34)] []
     readByte 0x0300 s = .error (.readUndeclared 0x0300) ∧ readByte 0x02FF s = .ok (0x34, s) ∧
      readByte (0x02FF - 255) s = .error (.readUndeclared 0x0200)) ∧
    (let s := oracle600 [] [] []
     readByte (page1 (s.sp + 1)) s = .error (.readUndeclared 0x01FE)) ∧
    (resolve (.zeroPage 0x10) (oracle600 [] [] []) = .ok (.mem 0x0010, oracle600 [] [] []) ∧
      readByte 0x0010 (oracle600 [] [] []) = .error (.readUndeclared 0x0010)) :=
  ⟨rfl, rfl, rfl, ⟨rfl, rfl, rfl⟩, rfl, rfl, rfl⟩

/-- ASL of 0x81 at 0x0010 under the oracle, the write not registered, and registered with another value than 0x02. -/
theorem witness_UpdateWriteViolations :
    (let s := oracle600 [] [(0x0010, 0x81)] []
     s.params.backend = .oracle ∧ readByte 0x0010 s = .ok (0x81, s) ∧ tableGet 0x0010 s.oracle.expWrite = none) ∧
    (let s := oracle600 [] [(0x0010, 0x81)] [(0x0010, 0x01)]
     s.params.backend = .oracle ∧ readByte 0x0010 s = .ok (0x81, s) ∧ tableGet 0x0010 s.oracle.expWrite = some 0x01 ∧
      (0x01 : Byte) ≠ BitVec.ofNat 8 (0x81 * 2)) := ⟨⟨rfl, rfl, rfl⟩, rfl, rfl, rfl, by decide⟩

/-- The step clause about NOP. -/
theorem witness_FlagInstructionsSetOneFlag :
    (begin600 [0xEA] []).run = .running ∧ (begin600 [0xEA] []).params.backend = .flat ∧
    (begin600 [0xEA] []).mem.byteAt (begin600 [0xEA] []).pc = 0xEA ∧ 0xEA ∈ (begin600 [0xEA] []).params.implemented := by
  decide

end Sys2Proof.Tests
end

section
/-!
The rules of the memory operations (spec/20_memory.md R54, R61, R63, R75): a word write of the flat backend, the bytes and the
word that memory holds after it, and the three answers of the oracle's write; then the statements they settle.
-/

namespace Sys2Proof

/-- A word is its high byte times 256 plus its low byte, as `BitVec.ofNat` of the sum. -/
theorem joinBytes_eq_ofNat (hi lo : Byte) : joinBytes hi lo = BitVec.ofNat 16 (hi.toNat * 256 + lo.toNat) := by
  rw [← joinBytes_toNat, BitVec.ofNat_toNat, BitVec.setWidth_eq]

end Sys2Proof

namespace Sys2Proof.Machine

/-! ## A word in the flat backend's memory -/

/-- The next address modulo 65536 is another address: 0xFFFF is followed by 0x0000. -/
theorem addr_ne_succ (a : Addr) : a ≠ a + 1 := by
  bv_omega

/-- Memory after `write_word(a, v)` of the flat backend (R54); `writeWord_flat` ties it to the operation. -/
def Memory.setWord (m : Memory) (a v : Addr) : Memory := (m.setByte a (loByte v)).setByte (a + 1) (hiByte v)

theorem Memory.byteAt_setWord_high (m : Memory) (a v : Addr) : (m.setWord a v).byteAt (a + 1) = hiByte v :=
  Memory.byteAt_setByte_same ..

theorem Memory.byteAt_setWord_low (m : Memory) (a v : Addr) : (m.setWord a v).byteAt a = loByte v :=
  (Memory.byteAt_setByte_ne _ (addr_ne_succ a) _).trans (Memory.byteAt_setByte_same ..)

theorem Memory.byteAt_setWord_ne (m : Memory) {a b : Addr} (hlo : b ≠ a) (hhi : b ≠ a + 1) (v : Addr) :
    (m.setWord a v).byteAt b = m.byteAt b :=
  (Memory.byteAt_setByte_ne _ hhi _).trans (Memory.byteAt_setByte_ne m hlo _)

@[simp] theorem Memory.wordAt_setWord (m : Memory) (a v : Addr) : (m.setWord a v).wordAt a = v := by
  rw [Memory.wordAt, Memory.byteAt_setWord_high, Memory.byteAt_setWord_low, joinBytes_hiByte_loByte]

theorem writeWord_flat {s : State} (h : s.params.backend = .flat) (a v : Addr) :
    writeWord a v s = .ok { s with mem := s.mem.setWord a v } := by
  simp [writeWord, writeByte_flat, h, Memory.setWord]

/-! ## Round trips under the flat backend -/

section Flat
variable {s : State} (h : s.params.backend = .flat)
include h

theorem writeByte_readByte_flat (a : Addr) (v : Byte) :
    ∃ t, writeByte a v s = .ok t ∧ readByte a t = .ok (v, t) ∧ ∀ b, b ≠ a → t.mem.byteAt b = s.mem.byteAt b := by
  refine ⟨_, writeByte_flat h a v, ?_, fun b hb => Memory.byteAt_setByte_ne s.mem hb v⟩
  rw [readByte_flat (s := { s with mem := s.mem.setByte a v }) h, Memory.byteAt_setByte_same]

theorem writeWord_readWord_flat (a v : Addr) :
    ∃ t, writeWord a v s = .ok t ∧ readWord a t = .ok (v, t) ∧
      (t.mem.byteAt a).toNat = v.toNat % 256 ∧ (t.mem.byteAt (a + 1)).toNat = v.toNat / 256 ∧
      ∀ b, b ≠ a → b ≠ a + 1 → t.mem.byteAt b = s.mem.byteAt b := by
  refine ⟨_, writeWord_flat h a v, ?_, ?_, ?_, fun b hlo hhi => Memory.byteAt_setWord_ne s.mem hlo hhi v⟩
  · rw [readWord_flat (s := { s with mem := s.mem.setWord a v }) h, Memory.wordAt_setWord]
  · rw [Memory.byteAt_setWord_low, loByte_toNat]
  · rw [Memory.byteAt_setWord_high, hiByte_toNat]

theorem readWord_flat_eq_ofNat (a : Addr) :
    readWord a s = .ok (BitVec.ofNat 16 ((s.mem.byteAt (a + 1)).toNat * 256 + (s.mem.byteAt a).toNat), s) := by
  rw [readWord_flat h, Memory.wordAt, joinBytes_eq_ofNat]

end Flat

/-! ## The oracle's write -/

section Oracle
variable {s : State} (h : s.params.backend = .oracle) {a : Addr} {v : Byte}
include h

theorem writeByte_oracle_undeclared (hw : tableGet a.toNat s.oracle.expWrite = none) :
    writeByte a v s = .error (.writeUndeclared a v) := by
  simp [writeByte, h, oracleWrite, hw]

theorem writeByte_oracle_mismatch {e : Byte} (hw : tableGet a.toNat s.oracle.expWrite = some e) (hne : e ≠ v) :
    writeByte a v s = .error (.writeMismatch a e v) := by
  simp [writeByte, h, oracleWrite, hw, hne]

theorem writeByte_oracle_expected (hw : tableGet a.toNat s.oracle.expWrite = some v) :
    writeByte a v s =
      .ok { s with oracle := { s.oracle with performed := tableSet a.toNat () s.oracle.performed } } := by
  simp [writeByte, h, oracleWrite, hw]

end Oracle

/-- The oracle of R63's exception: 0x0000 is to be written with 0x42 and answers 0x41 to a read. -/
def oracleReadsOtherThanWritten : State :=
  { State.reset with
    params := { Params.default with backend := .oracle }
    oracle := setReadTarget 0x0000 0x41 (setWriteTarget 0x0000 0x42 Oracle.empty) }

/-- The oracle stores no write (R80), so its read answers what was registered and not what was written. -/
theorem oracle_write_then_read_differs :
    ∃ (s t u : State) (a : Addr) (v w : Byte), s.params.backend = .oracle ∧ writeByte a v s = .ok t ∧
      readByte a t = .ok (w, u) ∧ w ≠ v :=
  ⟨oracleReadsOtherThanWritten, _, _, 0x0000, 0x42, 0x41, rfl, writeByte_oracle_expected rfl rfl, rfl, by decide⟩

/-! ## The statements -/

/-- Settles O17: memory after a flat write is `setByte` or `setWord`, whose bytes are known one by one. -/
theorem flatMemoryRoundTrips : Obligations.FlatMemoryRoundTrips :=
  ⟨fun _ a v h => writeByte_readByte_flat h a v, fun _ a v h => writeWord_readWord_flat h a v,
    fun _ a h => readWord_flat_eq_ofNat h a, oracle_write_then_read_differs⟩

/-- Settles O20: one rule for each thing the write table can list at the address. -/
theorem oracleWriteFollowsItsExpectation : Obligations.OracleWriteFollowsItsExpectation := by
  intro s a v h
  refine ⟨writeByte_oracle_undeclared h, fun e => writeByte_oracle_mismatch h, fun hw => ?_⟩
  exact ⟨_, writeByte_oracle_expected h hw, rfl, fun k => tableGet_tableSet k a.toNat () s.oracle.performed⟩

end Sys2Proof.Machine
end

section
/-!
The addressing modes' addresses (spec/40_execution.md R131 to R137) as sums of naturals, with the page bug of JMP's pointer, and
the three ends of JMP Indirect (spec/44_control.md R229); then the statements they settle.
-/

namespace Sys2Proof

/-- A zero-page index never carries into page 1 (R132, R133). -/
theorem zext16_add_toNat (b i : Byte) : (zext16 (b + i)).toNat = (b.toNat + i.toNat) % 256 := by
  rw [zext16_toNat, BitVec.toNat_add]

/-- An absolute index is added in full, modulo 65536 (R135, R136). -/
theorem add_zext16_toNat (w : Addr) (i : Byte) : (w + zext16 i).toNat = (w.toNat + i.toNat) % 65536 := by
  rw [BitVec.toNat_add, zext16_toNat]

theorem zext16_eq_joinBytes (b : Byte) : zext16 b = joinBytes 0 b := by
  apply BitVec.eq_of_toNat_eq
  simp [zext16_toNat, joinBytes_toNat]

theorem and_0xFF00 (w : Addr) : w &&& 0xFF00 = joinBytes (hiByte w) 0 :=
  calc w &&& 0xFF00 = joinBytes (hiByte w) (loByte w) &&& joinBytes (BitVec.allOnes 8) 0#8 :=
        congrArg (· &&& 0xFF00) (joinBytes_hiByte_loByte w).symm
    _ = joinBytes (hiByte w &&& BitVec.allOnes 8) (loByte w &&& 0#8) := BitVec.and_append
    _ = joinBytes (hiByte w) 0 := by rw [BitVec.and_allOnes, BitVec.and_zero]; rfl

/-- Masking the low byte off and putting another in its place is joining that byte to the high byte. -/
theorem and_0xFF00_or_zext16 (w : Addr) (b : Byte) : (w &&& 0xFF00) ||| zext16 b = joinBytes (hiByte w) b :=
  calc (w &&& 0xFF00) ||| zext16 b = joinBytes (hiByte w) 0 ||| joinBytes 0 b := by
        rw [and_0xFF00, zext16_eq_joinBytes]
    _ = joinBytes (hiByte w ||| 0#8) (0#8 ||| b) := BitVec.or_append
    _ = joinBytes (hiByte w) b := by rw [BitVec.or_zero, BitVec.zero_or]

end Sys2Proof

namespace Sys2Proof.Machine

/-! ## JMP Indirect -/

/-- The page bug of R137: the pointer's high byte is at the next address, but at the page's first one after its last. -/
theorem indirectHigh_eq (p : Addr) : indirectHigh p = if p.toNat % 256 = 255 then p - 255 else p + 1 := by
  apply BitVec.eq_of_toNat_eq
  rw [indirectHigh, and_0xFF00_or_zext16, joinBytes_toNat, hiByte_toNat, BitVec.toNat_add, loByte_toNat]
  split
  · bv_omega
  · bv_omega

/-- A read changes the oracle at most. -/
theorem ReadOnly.eq_oracle {s t : State} (h : ReadOnly s t) : t = { s with oracle := t.oracle } := by
  rw [h.eq]

theorem exec_jmpInd (p : Addr) (s : State) : exec (.jmpInd p) s = finish (jumpIndirect p s) := rfl

theorem exec_jmpInd_low_fault {p : Addr} {s : State} {e : Fault} (hlo : readByte p s = .error e) :
    exec (.jmpInd p) s = .fault e := by
  simp [exec_jmpInd, jumpIndirect, indirectTarget, hlo]

section LowByteRead
variable {p : Addr} {s t : State} {lo : Byte} (hlo : readByte p s = .ok (lo, t))
include hlo

theorem exec_jmpInd_high_fault {e : Fault} (hhi : readByte (indirectHigh p) t = .error e) :
    exec (.jmpInd p) s = .fault e := by
  simp [exec_jmpInd, jumpIndirect, indirectTarget, hlo, hhi]

theorem exec_jmpInd_next {u : State} {hi : Byte} (hhi : readByte (indirectHigh p) t = .ok (hi, u)) :
    exec (.jmpInd p) s = .next { s with oracle := u.oracle, pc := joinBytes hi lo } := by
  have hread : ReadOnly s u := (readByte_readOnly hlo).trans (readByte_readOnly hhi)
  calc exec (.jmpInd p) s = .next { u with pc := joinBytes hi lo } := by
        simp [exec_jmpInd, jumpIndirect, indirectTarget, hlo, hhi]
    _ = .next { s with oracle := u.oracle, pc := joinBytes hi lo } := by rw [hread.eq_oracle]

end LowByteRead

/-! ## The statements -/

/-- Settles O44: the high byte's address is the page bug's, and each way the two reads can end has its rule. -/
theorem jumpsSetPC : Obligations.JumpsSetPC := by
  refine ⟨fun _ _ => ⟨rfl, rfl, rfl⟩, fun _ _ _ => exec_jmpInd_low_fault, ?_, ?_⟩
  · intro p s t lo e hlo hhi
    rw [← indirectHigh_eq] at hhi
    exact exec_jmpInd_high_fault hlo hhi
  · intro p s t u lo hi hlo hhi
    rw [← indirectHigh_eq] at hhi
    rw [exec_jmpInd_next hlo hhi, joinBytes_eq_ofNat]

/-- Settles O28: the byte of the address is added to before it is extended. -/
theorem zeroPageModesWrapInZeroPage : Obligations.ZeroPageModesWrapInZeroPage := fun s b =>
  ⟨⟨_, rfl, zext16_toNat b⟩, ⟨_, rfl, zext16_add_toNat b s.x⟩, ⟨_, rfl, zext16_add_toNat b s.y⟩⟩

/-- Settles O29: the index is extended before it is added. -/
theorem absoluteModesAddInFull : Obligations.AbsoluteModesAddInFull := fun s w =>
  ⟨rfl, ⟨_, rfl, add_zext16_toNat w s.x⟩, ⟨_, rfl, add_zext16_toNat w s.y⟩⟩

end Sys2Proof.Machine
end

section
/-!
Loads and stores (spec/41_load_store.md R160 to R166): the one operation that every form of a mnemonic runs, its answer for each
way its reads and its write can end; then the statements they settle.
-/

namespace Sys2Proof.Machine

/-! ## The operation behind a mnemonic's forms -/

/-- Every form runs the one operation on the operand listed with it. -/
def FormsRun {α : Type} (forms : Byte → Addr → List (Instr × α)) (op : α → State → Except Fault State) : Prop :=
  ∀ (b : Byte) (w : Addr), ∀ f ∈ forms b w, ∀ s, exec f.1 s = finish (op f.2 s)

/-- The forms are listed in full, so comparing the lists of their meanings covers each of them. -/
theorem formsRun_of_map_eq {α : Type} {forms : Byte → Addr → List (Instr × α)} {op : α → State → Except Fault State}
    (h : ∀ b w, (forms b w).map (fun f => exec f.1) = (forms b w).map fun f s => finish (op f.2 s)) : FormsRun forms op :=
  fun b w f hf s => congrFun (List.map_inj_left.1 (h b w) f hf) s

theorem ldaForms_run_lda : FormsRun ldaForms lda := formsRun_of_map_eq fun _ _ => rfl

theorem ldxForms_run_ldx : FormsRun ldxForms ldx := formsRun_of_map_eq fun _ _ => rfl

theorem ldyForms_run_ldy : FormsRun ldyForms ldy := formsRun_of_map_eq fun _ _ => rfl

theorem staForms_run_sta : FormsRun staForms sta := formsRun_of_map_eq fun _ _ => rfl

theorem stxForms_run_stx : FormsRun stxForms stx := formsRun_of_map_eq fun _ _ => rfl

theorem styForms_run_sty : FormsRun styForms sty := formsRun_of_map_eq fun _ _ => rfl

theorem FormsRun.faultsWithItsRead {forms : Byte → Addr → List (Instr × Source)}
    {op : Source → State → Except Fault State} (hrun : FormsRun forms op)
    (hop : ∀ src s e, readSource src s = .error e → op src s = .error e) : FaultsWithItsRead forms := by
  intro b w f hf s e he
  rw [hrun b w f hf s, hop f.2 s e he, finish_error]

theorem FormsRun.faultsWithItsPointer {forms : Byte → Addr → List (Instr × LocMode)}
    {op : LocMode → State → Except Fault State} (hrun : FormsRun forms op)
    (hop : ∀ m s e, resolve m s = .error e → op m s = .error e) : FaultsWithItsPointer forms := by
  intro b w f hf s e he
  rw [hrun b w f hf s, hop f.2 s e he, finish_error]

/-! ## Loads -/

/-- `SetZN` (R144) by the byte's value as a natural number. -/
theorem Status.setZN_eq (p : Status) (v : Byte) :
    p.setZN v = { p with z := decide (v.toNat = 0), n := decide (128 ≤ v.toNat) } := by
  have hz : (v == 0) = decide (v.toNat = 0) := by
    simp [BitVec.toNat_eq, beq_eq_decide]
  rw [Status.setZN, hz, getLsbD_seven]

/-- What LDA, LDX and LDY share, `set` being the write of the register; `lda_eq_loadInto` and its like tie it to them. -/
def loadInto (set : State → Byte → State) (src : Source) (s : State) : Except Fault State := do
  let (v, t) ← readSource src s
  .ok (set { t with p := t.p.setZN v } v)

theorem lda_eq_loadInto : lda = loadInto fun s v => { s with a := v } := rfl

theorem ldx_eq_loadInto : ldx = loadInto fun s v => { s with x := v } := rfl

theorem ldy_eq_loadInto : ldy = loadInto fun s v => { s with y := v } := rfl

theorem loadInto_of_read_error {set : State → Byte → State} {src : Source} {s : State} {e : Fault}
    (he : readSource src s = .error e) : loadInto set src s = .error e := by
  simp [loadInto, he]

theorem loadInto_of_read_ok (set : State → Byte → State) {src : Source} {s t : State} {v : Byte}
    (hv : readSource src s = .ok (v, t)) :
    loadInto set src s = .ok (set { s with
      oracle := t.oracle, p := { s.p with z := decide (v.toNat = 0), n := decide (128 ≤ v.toNat) } } v) := by
  calc loadInto set src s = .ok (set { t with p := t.p.setZN v } v) := by simp [loadInto, hv]
    _ = .ok (set { s with oracle := t.oracle, p := s.p.setZN v } v) := by
        rw [(readSource_readOnly hv).eq_oracle]
    _ = _ := by rw [Status.setZN_eq]

theorem FormsRun.loadRule {forms : Byte → Addr → List (Instr × Source)} {ops : List Byte} {set : State → Byte → State}
    (hrun : FormsRun forms (loadInto set)) (hops : HasOpcodes forms ops) : LoadRule forms ops set := by
  refine ⟨hops, hrun.faultsWithItsRead fun _ _ _ => loadInto_of_read_error, ?_⟩
  intro b w f hf s t v hv
  rw [hrun b w f hf s, loadInto_of_read_ok set hv, finish_ok]

/-! ## A write after the reads of the same instruction -/

section AfterReads
variable {s t : State} (hread : ReadOnly s t) {a : Addr} {v : Byte}
include hread

theorem ReadOnly.params : t.params = s.params := hread.kept.params

/-- Reads leave the write expectations, so a write after them is checked against those the instruction began with. -/
theorem ReadOnly.expWrite : t.oracle.expWrite = s.oracle.expWrite := by
  rw [hread.eq]

theorem ReadOnly.writeByte_flat (hb : s.params.backend = .flat) :
    writeByte a v t = .ok { s with mem := s.mem.setByte a v } := by
  rw [hread.flat hb, Machine.writeByte_flat hb]

variable (hb : s.params.backend = .oracle)
include hb

theorem ReadOnly.writeByte_expected (hw : tableGet a.toNat s.oracle.expWrite = some v) :
    writeByte a v t =
      .ok { s with oracle := { t.oracle with performed := tableSet a.toNat () t.oracle.performed } } := by
  rw [writeByte_oracle_expected (hread.params ▸ hb) (hread.expWrite ▸ hw), hread.eq_oracle]

theorem ReadOnly.writeByte_undeclared (hw : tableGet a.toNat s.oracle.expWrite = none) :
    writeByte a v t = .error (.writeUndeclared a v) :=
  writeByte_oracle_undeclared (hread.params ▸ hb) (hread.expWrite ▸ hw)

theorem ReadOnly.writeByte_mismatch {e : Byte} (hw : tableGet a.toNat s.oracle.expWrite = some e) (hne : e ≠ v) :
    writeByte a v t = .error (.writeMismatch a e v) :=
  writeByte_oracle_mismatch (hread.params ▸ hb) (hread.expWrite ▸ hw) hne

end AfterReads

/-! ## Stores -/

theorem store_of_resolve_error {m : LocMode} {v : Byte} {s : State} {e : Fault} (he : resolve m s = .error e) :
    store m v s = .error e := by
  simp [store, he]

theorem store_of_resolve_mem {m : LocMode} {s t : State} {a : Addr} (hr : resolve m s = .ok (.mem a, t)) (v : Byte) :
    store m v s = writeByte a v t := by
  simp [store, hr, writeLoc]

theorem FormsRun.storeRule {forms : Byte → Addr → List (Instr × LocMode)} {ops : List Byte} {reg : State → Byte}
    (hrun : FormsRun forms fun m s => store m (reg s) s) (hops : HasOpcodes forms ops) : StoreRule forms ops reg := by
  refine ⟨hops, hrun.faultsWithItsPointer fun _ _ _ => store_of_resolve_error, ?_⟩
  intro b w f hf s t a hr
  have hread : ReadOnly s t := resolve_readOnly hr
  have hexec : exec f.1 s = finish (writeByte a (reg s) t) :=
    (hrun b w f hf s).trans (congrArg finish (store_of_resolve_mem hr (reg s)))
  rw [hexec]
  refine ⟨fun hb => ?_, fun hb => ⟨fun hw => ?_, fun hw => ?_, fun e hw hne => ?_⟩⟩
  · rw [hread.writeByte_flat hb]
    exact ⟨_, rfl, rfl, Memory.byteAt_setByte_same .., fun c hc => Memory.byteAt_setByte_ne s.mem hc (reg s)⟩
  · rw [hread.writeByte_expected hb hw]
    exact ⟨_, rfl, rfl, tableGet_tableSet_same ..⟩
  · rw [hread.writeByte_undeclared hb hw, finish_error]
  · rw [hread.writeByte_mismatch hb hw hne, finish_error]

/-! ## The statements -/

/-- Settles O33: every form runs its mnemonic's operation, and the three operations are one with another register. -/
theorem loadsSetTheRegisterAndZN : Obligations.LoadsSetTheRegisterAndZN :=
  ⟨FormsRun.loadRule (lda_eq_loadInto ▸ ldaForms_run_lda) fun _ _ => rfl,
    FormsRun.loadRule (ldx_eq_loadInto ▸ ldxForms_run_ldx) fun _ _ => rfl,
    FormsRun.loadRule (ldy_eq_loadInto ▸ ldyForms_run_ldy) fun _ _ => rfl⟩

/-- Settles O34: every form runs `store` with its register's byte, and a write after reads has one rule for each way it can end. -/
theorem storesWriteOneByte : Obligations.StoresWriteOneByte :=
  ⟨FormsRun.storeRule (reg := State.a) staForms_run_sta fun _ _ => rfl,
    FormsRun.storeRule (reg := State.x) stxForms_run_stx fun _ _ => rfl,
    FormsRun.storeRule (reg := State.y) styForms_run_sty fun _ _ => rfl⟩

end Sys2Proof.Machine
end

section
/-!
ADC, AND, ORA and EOR (spec/42_alu.md R180, R182, R184 to R186): what the instructions that only read their operand share, the
adder's overflow as a fact about signed numbers, and the effect of each on A and P; then the statements they settle.
-/

namespace Sys2Proof

/-- Masking a byte with 0x80 tests its bit 7. -/
theorem and_0x80_ne_zero (w : Byte) : (w &&& 0x80 != 0) = w.getLsbD 7 := by
  have hmask : w &&& 0x80 = if w.getLsbD 7 then BitVec.twoPow 8 7 else 0 := BitVec.and_twoPow w 7
  rw [hmask]
  cases w.getLsbD 7 <;> rfl

end Sys2Proof

namespace Sys2Proof.Machine

/-! ## Instructions that only read their operand -/

/-- Read the operand once, then change the state by `effect`; `adc_eq_readThen` and its like tie it to the model. -/
def readThen (effect : Byte → State → State) (src : Source) (s : State) : Except Fault State := do
  let (m, t) ← readSource src s
  .ok (effect m t)

section ReadThen
variable {forms : Byte → Addr → List (Instr × Source)} {effect : Byte → State → State}
  (hrun : FormsRun forms (readThen effect))
include hrun

theorem FormsRun.faultsWithItsRead_of_readThen : FaultsWithItsRead forms :=
  hrun.faultsWithItsRead fun _ _ _ he => by simp [readThen, he]

/-- The read changes the oracle at most, so the effect is on the state the instruction began with, that aside. -/
theorem FormsRun.exec_of_readThen {b : Byte} {w : Addr} {f : Instr × Source} (hf : f ∈ forms b w) {s t : State} {m : Byte}
    (hm : readSource f.2 s = .ok (m, t)) : exec f.1 s = .next (effect m { s with oracle := t.oracle }) :=
  calc exec f.1 s = finish (readThen effect f.2 s) := hrun b w f hf s
    _ = .next (effect m t) := by simp [readThen, hm]
    _ = .next (effect m { s with oracle := t.oracle }) := by rw [← (readSource_readOnly hm).eq_oracle]

end ReadThen

/-! ## The adder -/

section Adder
variable (a m : Byte) (cin : Bool)

theorem addWithCarry_r_toNat : (addWithCarry a m cin).r.toNat = (a.toNat + m.toNat + cin.toNat) % 256 :=
  BitVec.toNat_ofNat ..

theorem addWithCarry_c : (addWithCarry a m cin).c = decide (255 < a.toNat + m.toNat + cin.toNat) := rfl

theorem addWithCarry_v :
    (addWithCarry a m cin).v =
      (((a ^^^ (addWithCarry a m cin).r) &&& (m ^^^ (addWithCarry a m cin).r) &&& 0x80) != 0) := rfl

/-- V is set when the result's sign is neither operand's. -/
theorem addWithCarry_v_iff_sign : (addWithCarry a m cin).v = true ↔
    ((128 ≤ a.toNat ↔ 128 ≤ m.toNat) ∧ ¬(128 ≤ a.toNat ↔ 128 ≤ (addWithCarry a m cin).r.toNat)) := by
  rw [addWithCarry_v, and_0x80_ne_zero, BitVec.getLsbD_and, BitVec.getLsbD_xor, BitVec.getLsbD_xor]
  simp only [getLsbD_seven, Bool.and_eq_true, bne_iff_ne, ne_eq, decide_eq_decide]
  tauto

/-- V is signed overflow (R180). -/
theorem addWithCarry_v_iff : (addWithCarry a m cin).v = true ↔
    ¬(-128 ≤ a.toInt + m.toInt + cin.toNat ∧ a.toInt + m.toInt + cin.toNat ≤ 127) := by
  rw [addWithCarry_v_iff_sign, addWithCarry_r_toNat, byte_toInt, byte_toInt]
  have hcin : cin.toNat ≤ 1 := cin.toNat_le
  split <;> split <;> omega

end Adder

/-! ## ADC -/

/-- What ADC does with its operand (R182). -/
def addToA (m : Byte) (s : State) : State :=
  { s with a := (addWithCarry s.a m s.p.c).r, p := s.p.setSum (addWithCarry s.a m s.p.c) }

theorem adc_eq_readThen : adc = readThen addToA := rfl

theorem adcForms_run_adc : FormsRun adcForms adc := formsRun_of_map_eq fun _ _ => rfl

theorem Status.setSum_eq (p : Status) (t : Sum) :
    p.setSum t = { p with c := t.c, v := t.v, z := decide (t.r.toNat = 0), n := decide (128 ≤ t.r.toNat) } := by
  rw [Status.setSum, Status.setZN_eq]

/-! ## AND, ORA and EOR -/

/-- What a logic instruction does with its operand (R184 to R186). -/
def combineWithA (g : Byte → Byte → Byte) (m : Byte) (s : State) : State :=
  { s with a := g s.a m, p := s.p.setZN (g s.a m) }

theorem logic_eq_readThen (g : Byte → Byte → Byte) : logic g = readThen (combineWithA g) := rfl

theorem andForms_run_logic : FormsRun andForms (logic fun a m => a &&& m) := formsRun_of_map_eq fun _ _ => rfl

theorem oraForms_run_logic : FormsRun oraForms (logic fun a m => a ||| m) := formsRun_of_map_eq fun _ _ => rfl

theorem eorForms_run_logic : FormsRun eorForms (logic fun a m => a ^^^ m) := formsRun_of_map_eq fun _ _ => rfl

/-- A mnemonic's logic rule, from the bits of the operation its forms run. -/
theorem FormsRun.logicRule {forms : Byte → Addr → List (Instr × Source)} {ops : List Byte} {f : Byte → Byte → Byte}
    {g : Bool → Bool → Bool} (hrun : FormsRun forms (logic f)) (hops : HasOpcodes forms ops)
    (hbits : ∀ a m k, (f a m).getLsbD k = g (a.getLsbD k) (m.getLsbD k)) : LogicRule forms ops g := by
  rw [logic_eq_readThen] at hrun
  refine ⟨hops, hrun.faultsWithItsRead_of_readThen, ?_⟩
  intro b w form hform s t m hm
  exact ⟨_, hrun.exec_of_readThen hform hm, rfl, fun k _ => hbits s.a m k⟩

/-! ## The statements -/

/-- Settles O35: every form runs the one adder, whose V is signed overflow, and C, V, Z and N are read off its answer. -/
theorem adcAddsWithCarry : Obligations.AdcAddsWithCarry := by
  have hrun : FormsRun adcForms (readThen addToA) := adc_eq_readThen ▸ adcForms_run_adc
  refine ⟨fun _ _ => rfl, hrun.faultsWithItsRead_of_readThen, ?_⟩
  intro b w f hf s t m hm
  exact ⟨_, hrun.exec_of_readThen hf hm, rfl, addWithCarry_r_toNat .., addWithCarry_c .., addWithCarry_v ..,
    addWithCarry_v_iff .., congrArg Status.z (Status.setSum_eq ..), congrArg Status.n (Status.setSum_eq ..), rfl, rfl⟩

/-- Settles O38: every form runs `logic` with its mnemonic's operation, which works bit by bit. -/
theorem logicIsBitwise : Obligations.LogicIsBitwise :=
  ⟨andForms_run_logic.logicRule (fun _ _ => rfl) fun _ _ _ => BitVec.getLsbD_and,
    oraForms_run_logic.logicRule (fun _ _ => rfl) fun _ _ _ => BitVec.getLsbD_or,
    eorForms_run_logic.logicRule (fun _ _ => rfl) fun _ _ _ => BitVec.getLsbD_xor⟩

end Sys2Proof.Machine
end

section
/-!
Shifts, rotates, INC and DEC (spec/43_shift_incdec.md R200 to R206): each shift in numbers, the one read-modify-write that every
form runs, its answer for each way its reads and its write can end; then the statements they settle.
-/

namespace Sys2Proof

/-! ## Bytes moved one bit or one step, in numbers -/

theorem flagByte_toNat (c : Bool) : (flagByte c).toNat = c.toNat := by
  cases c <;> rfl

theorem getLsbD_zero (v : Byte) : v.getLsbD 0 = decide (v.toNat % 2 = 1) :=
  Nat.testBit_zero v.toNat

theorem shl_one_toNat (v : Byte) : (v <<< 1).toNat = v.toNat % 128 * 2 := by
  rw [BitVec.toNat_shiftLeft, Nat.shiftLeft_eq]
  omega

theorem shr_one_toNat (v : Byte) : (v >>> 1).toNat = v.toNat / 2 := by
  rw [BitVec.toNat_ushiftRight, Nat.shiftRight_eq_div_pow, pow_one]

/-- Two bytes with no bit in common: one a multiple of `2 ^ k`, the other below it. -/
theorem or_eq_ofNat_add {hi lo : Byte} {q k : Nat} (hhi : hi.toNat = q * 2 ^ k) (hlo : lo.toNat < 2 ^ k) :
    hi ||| lo = BitVec.ofNat 8 (hi.toNat + lo.toNat) := by
  have hor : hi.toNat + lo.toNat = hi.toNat ||| lo.toNat := by
    rw [hhi, ← Nat.shiftLeft_eq, Nat.shiftLeft_add_eq_or_of_lt hlo]
  rw [hor, ← BitVec.toNat_or, BitVec.ofNat_toNat, BitVec.setWidth_eq]

theorem shl_one_or_flagByte (v : Byte) (c : Bool) : v <<< 1 ||| flagByte c = BitVec.ofNat 8 (v.toNat * 2 + c.toNat) := by
  have hlo : (flagByte c).toNat < 2 ^ 1 := flagByte_toNat c ▸ c.toNat_lt
  rw [or_eq_ofNat_add (shl_one_toNat v) hlo, shl_one_toNat, flagByte_toNat]
  bv_omega

theorem shr_one_or_flagByte (v : Byte) (c : Bool) :
    v >>> 1 ||| flagByte c <<< 7 = BitVec.ofNat 8 (v.toNat / 2 + c.toNat * 128) := by
  have hhi : (flagByte c <<< 7).toNat = c.toNat * 128 := by cases c <;> rfl
  have hlo : (v >>> 1).toNat < 2 ^ 7 := by
    rw [shr_one_toNat]
    omega
  rw [BitVec.or_comm, or_eq_ofNat_add (q := c.toNat) (k := 7) hhi hlo, hhi, shr_one_toNat, Nat.add_comm]

theorem byte_add_one_eq (v : Byte) : v + 1 = BitVec.ofNat 8 (v.toNat + 1) := by
  bv_omega

theorem byte_sub_one_eq (v : Byte) : v - 1 = BitVec.ofNat 8 (v.toNat + 255) := by
  bv_omega

end Sys2Proof

namespace Sys2Proof.Machine

/-! ## The shifts, in numbers -/

theorem shiftAsl_eq (v : Byte) (c : Bool) : shiftAsl v c = ⟨BitVec.ofNat 8 (v.toNat * 2), decide (128 ≤ v.toNat)⟩ := by
  have hr : v <<< 1 = BitVec.ofNat 8 (v.toNat * 2) := by simpa [flagByte] using shl_one_or_flagByte v false
  rw [shiftAsl, hr, getLsbD_seven]

theorem shiftLsr_eq (v : Byte) (c : Bool) : shiftLsr v c = ⟨BitVec.ofNat 8 (v.toNat / 2), decide (v.toNat % 2 = 1)⟩ := by
  have hr : v >>> 1 = BitVec.ofNat 8 (v.toNat / 2) := by simpa [flagByte] using shr_one_or_flagByte v false
  rw [shiftLsr, hr, getLsbD_zero]

theorem shiftRol_eq (v : Byte) (c : Bool) :
    shiftRol v c = ⟨BitVec.ofNat 8 (v.toNat * 2 + c.toNat), decide (128 ≤ v.toNat)⟩ := by
  rw [shiftRol, shl_one_or_flagByte, getLsbD_seven]

theorem shiftRor_eq (v : Byte) (c : Bool) :
    shiftRor v c = ⟨BitVec.ofNat 8 (v.toNat / 2 + c.toNat * 128), decide (v.toNat % 2 = 1)⟩ := by
  rw [shiftRor, shr_one_or_flagByte, getLsbD_zero]

/-! ## The operation behind the forms -/

/-- What the shifts, INC and DEC share (R200): `f` gives the new byte and carry from the old, `setP` the flags;
`shift_eq_updateOperand` and `bump_eq_updateOperand` tie it to the model. -/
def updateOperand (f : Byte → Bool → Shifted) (setP : Shifted → Status → Status) (m : LocMode) (s : State) :
    Except Fault State := do
  let (l, t) ← resolve m s
  let (v, t') ← readLoc l t
  let u ← writeLoc l (f v t'.p.c).r t'
  .ok { u with p := setP (f v t'.p.c) u.p }

theorem shift_eq_updateOperand (f : Byte → Bool → Shifted) : shift f = updateOperand f fun x p => p.setShift x := rfl

/-- INC and DEC give the old carry back. -/
theorem bump_eq_updateOperand (g : Byte → Byte) : bump g = updateOperand (fun v c => ⟨g v, c⟩) fun x p => p.setZN x.r := rfl

theorem Status.setShift_eq (p : Status) (x : Shifted) : p.setShift x = updatedStatus p x.r x.c :=
  Status.setZN_eq { p with c := x.c } x.r

theorem Status.setZN_eq_updatedStatus (p : Status) (r : Byte) : p.setZN r = updatedStatus p r p.c :=
  Status.setZN_eq p r

section UpdateOperand
variable {f : Byte → Bool → Shifted} {setP : Shifted → Status → Status} {m : LocMode} {s t : State} {a : Addr}

theorem updateOperand_of_resolve_error {e : Fault} (he : resolve m s = .error e) : updateOperand f setP m s = .error e := by
  simp [updateOperand, he]

variable (hr : resolve m s = .ok (.mem a, t))
include hr

theorem updateOperand_of_read_error {e : Fault} (he : readByte a t = .error e) : updateOperand f setP m s = .error e := by
  simp [updateOperand, hr, readLoc, he]

/-- Reads leave P, so the carry that enters is the one the instruction began with. -/
theorem updateOperand_of_read_ok {v : Byte} {t' : State} (hv : readByte a t = .ok (v, t')) :
    updateOperand f setP m s =
      writeByte a (f v s.p.c).r t' >>= fun u => .ok { u with p := setP (f v s.p.c) u.p } := by
  have hp : t'.p = s.p := by rw [((resolve_readOnly hr).trans (readByte_readOnly hv)).eq]
  simp [updateOperand, hr, readLoc, hv, writeLoc, hp]

end UpdateOperand

/-! ## The rules -/

/-- A mnemonic's rule, from the operation its forms run, given in numbers. -/
theorem FormsRun.updateRule {forms : Byte → Addr → List (Instr × LocMode)} {ops : List Byte}
    {f : Byte → Bool → Shifted} {setP : Shifted → Status → Status} {r : Byte → Bool → Nat} {c : Byte → Bool → Bool}
    (hrun : FormsRun forms (updateOperand f setP)) (hops : HasOpcodes forms ops)
    (hf : ∀ v cin, f v cin = ⟨BitVec.ofNat 8 (r v cin), c v cin⟩)
    (hp : ∀ v p, setP (f v p.c) p = updatedStatus p (f v p.c).r (f v p.c).c) : UpdateRule forms ops r c := by
  refine ⟨hops, hrun.faultsWithItsPointer fun _ _ _ => updateOperand_of_resolve_error, ?_⟩
  intro b w form hform s t a hr
  have hexec : ∀ v t', readByte a t = .ok (v, t') → exec form.1 s = finish (writeByte a (BitVec.ofNat 8 (r v s.p.c)) t' >>=
      fun u => .ok { u with p := setP (f v s.p.c) u.p }) := fun v t' hv => by
    rw [hrun b w form hform s, updateOperand_of_read_ok hr hv, hf]
  have hpv : ∀ v, setP (f v s.p.c) s.p = updatedStatus s.p (BitVec.ofNat 8 (r v s.p.c)) (c v s.p.c) := fun v => by
    rw [hp, hf]
  refine ⟨fun hb => ?_, fun hb => ⟨fun e he => ?_, fun v t' hv => ?_⟩⟩
  · have hts : t = s := (resolve_readOnly hr).flat hb
    subst t
    rw [hexec _ _ (readByte_flat hb a), writeByte_flat hb]
    refine ⟨_, rfl, Memory.byteAt_setByte_same .., fun d hd => Memory.byteAt_setByte_ne s.mem hd _, ?_⟩
    rw [hpv, Memory.byteAt_setByte_same]
  · rw [hrun b w form hform s, updateOperand_of_read_error hr he, finish_error]
  · have hread : ReadOnly s t' := (resolve_readOnly hr).trans (readByte_readOnly hv)
    rw [hexec v t' hv]
    refine ⟨fun hw => ?_, fun hw => ?_, fun e hw hne => ?_⟩
    · rw [hread.writeByte_expected hb hw]
      refine ⟨_, rfl, tableGet_tableSet_same .., ?_⟩
      rw [hpv]
    · rw [hread.writeByte_undeclared hb hw, except_error_bind, finish_error]
    · rw [hread.writeByte_mismatch hb hw hne, except_error_bind, finish_error]

section Shifts
variable {f : Byte → Bool → Shifted} {r : Byte → Bool → Nat} {c : Byte → Bool → Bool}
  (hf : ∀ v cin, f v cin = ⟨BitVec.ofNat 8 (r v cin), c v cin⟩)
include hf

theorem FormsRun.updateRule_of_shift {forms : Byte → Addr → List (Instr × LocMode)} {ops : List Byte}
    (hrun : FormsRun forms (shift f)) (hops : HasOpcodes forms ops) : UpdateRule forms ops r c :=
  FormsRun.updateRule (shift_eq_updateOperand f ▸ hrun) hops hf fun v p => p.setShift_eq (f v p.c)

theorem accumulatorRule_of_shift {i : Instr} {op : Byte} (hrun : ∀ s, exec i s = finish (shift f .accumulator s))
    (hop : instrOpcode i = op) : AccumulatorRule i op r c := by
  refine ⟨hop, fun s => ?_⟩
  calc exec i s = .next { s with a := (f s.a s.p.c).r, p := s.p.setShift (f s.a s.p.c) } := hrun s
    _ = _ := by rw [Status.setShift_eq, hf]

end Shifts

theorem FormsRun.updateRule_of_bump {forms : Byte → Addr → List (Instr × LocMode)} {ops : List Byte} {g : Byte → Byte}
    {r : Byte → Nat} (hrun : FormsRun forms (bump g)) (hops : HasOpcodes forms ops)
    (hg : ∀ v, g v = BitVec.ofNat 8 (r v)) : UpdateRule forms ops (fun v _ => r v) fun _ c => c :=
  FormsRun.updateRule (bump_eq_updateOperand g ▸ hrun) hops (fun v cin => by rw [hg]) fun v p => p.setZN_eq_updatedStatus (g v)

theorem aslForms_run_asl : FormsRun aslForms asl := formsRun_of_map_eq fun _ _ => rfl

theorem lsrForms_run_lsr : FormsRun lsrForms lsr := formsRun_of_map_eq fun _ _ => rfl

theorem rolForms_run_rol : FormsRun rolForms rol := formsRun_of_map_eq fun _ _ => rfl

theorem rorForms_run_ror : FormsRun rorForms ror := formsRun_of_map_eq fun _ _ => rfl

theorem incForms_run_inc : FormsRun incForms inc := formsRun_of_map_eq fun _ _ => rfl

theorem decForms_run_dec : FormsRun decForms dec := formsRun_of_map_eq fun _ _ => rfl

/-! ## The statements -/

/-- Settles O41: every form runs `shift` with its mnemonic's shift, which is given in numbers once for memory and Accumulator. -/
theorem shiftsMoveOneBit : Obligations.ShiftsMoveOneBit :=
  ⟨⟨FormsRun.updateRule_of_shift shiftAsl_eq aslForms_run_asl fun _ _ => rfl,
      FormsRun.updateRule_of_shift shiftLsr_eq lsrForms_run_lsr fun _ _ => rfl,
      FormsRun.updateRule_of_shift shiftRol_eq rolForms_run_rol fun _ _ => rfl,
      FormsRun.updateRule_of_shift shiftRor_eq rorForms_run_ror fun _ _ => rfl⟩,
    accumulatorRule_of_shift shiftAsl_eq (fun _ => rfl) rfl,
    accumulatorRule_of_shift shiftLsr_eq (fun _ => rfl) rfl,
    accumulatorRule_of_shift shiftRol_eq (fun _ => rfl) rfl,
    accumulatorRule_of_shift shiftRor_eq (fun _ => rfl) rfl⟩

/-- Settles O42: every form runs `bump`, the read-modify-write of the shifts with the old carry given back. -/
theorem incDecOfMemory : Obligations.IncDecOfMemory :=
  ⟨FormsRun.updateRule_of_bump incForms_run_inc (fun _ _ => rfl) byte_add_one_eq,
    FormsRun.updateRule_of_bump decForms_run_dec (fun _ _ => rfl) byte_sub_one_eq⟩

end Sys2Proof.Machine
end

section
/-!
The eight branches (spec/44_control.md R220 to R228): the Relative target of R140 as a sum of integers, the state that a branch
leaves, and one rule for every branch; then the statement they settle.
-/

namespace Sys2Proof.Machine

/-- The Relative target (R140) in integers: sign extension is the offset's integer value modulo 65536. -/
theorem relativeTarget_eq_ofInt (pcNext : Addr) (off : Byte) :
    relativeTarget pcNext off = BitVec.ofInt 16 (pcNext.toNat + off.toInt) := by
  have hpc : BitVec.ofInt 16 pcNext.toNat = pcNext := by
    rw [BitVec.ofInt_natCast, BitVec.ofNat_toNat, BitVec.setWidth_eq]
  calc relativeTarget pcNext off = pcNext + BitVec.ofInt 16 off.toInt := rfl
    _ = BitVec.ofInt 16 (pcNext.toNat + off.toInt) := by rw [BitVec.ofInt_add, hpc]

/-- Taken or not, a branch changes PC at most. -/
theorem branch_eq (cond : Bool) (off : Byte) (s : State) :
    branch cond off s = { s with pc := if cond then BitVec.ofInt 16 (s.pc.toNat + off.toInt) else s.pc } := by
  cases cond with
  | true => simp [branch, relativeTarget_eq_ofInt]
  | false => rfl

/-- One branch's rule, from its opcode and the condition that its meaning gives to `branch`. -/
theorem branchRule_of_branch {i : Byte → Instr} {op : Byte} {cond : Status → Bool} (hop : ∀ off, instrOpcode (i off) = op)
    (hrun : ∀ off s, exec (i off) s = .next (branch (cond s.p) off s)) : BranchRule i op cond := fun off s =>
  ⟨hop off, by rw [hrun, branch_eq]⟩

/-! ## The statement -/

/-- Settles O43: every branch runs `branch` with its own condition, and the target is a sum of integers modulo 65536. -/
theorem branchesTestOneFlag : Obligations.BranchesTestOneFlag :=
  ⟨branchRule_of_branch (fun _ => rfl) fun _ _ => rfl, branchRule_of_branch (fun _ => rfl) fun _ _ => rfl,
    branchRule_of_branch (fun _ => rfl) fun _ _ => rfl, branchRule_of_branch (fun _ => rfl) fun _ _ => rfl,
    branchRule_of_branch (fun _ => rfl) fun _ _ => rfl, branchRule_of_branch (fun _ => rfl) fun _ _ => rfl,
    branchRule_of_branch (fun _ => rfl) fun _ _ => rfl, branchRule_of_branch (fun _ => rfl) fun _ _ => rfl⟩

end Sys2Proof.Machine
end

section
/-!
The single-mode instructions that touch registers and flags alone (spec/45_single_mode.md R251 to R256, R261 to R272): `SetZN` as
the statements write it, and the flat step of an implemented opcode without operand bytes; then the statements they settle.
-/

namespace Sys2Proof.Machine

/-- `SetZN` (R144), Z as an equation of bytes. -/
theorem Status.setZN_eq_withZN (p : Status) (v : Byte) : p.setZN v = withZN p v := rfl

/-! ## The flat step of a one-byte instruction -/

section OneByte
variable {s : State} {i : Instr} (hflat : s.params.backend = .flat) (himpl : s.mem.byteAt s.pc ∈ s.params.implemented)
  (hform : decodeOpcode (s.mem.byteAt s.pc) = .op0 i)
include hflat himpl hform

theorem fetchInstr_flat_of_op0 : fetchInstr s = .ok (i, { s with pc := s.pc + 1 }) := by
  simp [fetchInstr, fetch8_flat hflat, himpl, hform]

theorem step_flat_of_op0 (hrun : s.run = .running) : step s = exec i { s with pc := s.pc + 1 } :=
  calc step s = endStep (exec i { s with pc := s.pc + 1 }) := by
        simp [step, hrun, fetchInstr_flat_of_op0 hflat himpl hform]
    _ = exec i { s with pc := s.pc + 1 } := endStep_exec_flat i _ hflat

end OneByte

/-! ## The statements -/

/-- Settles O51: each meaning copies its register, and Z and N are `SetZN`'s, which TXS does not call. -/
theorem transfersCopyARegister : Obligations.TransfersCopyARegister := by
  refine ⟨rfl, fun s => ?_⟩
  simp only [← Status.setZN_eq_withZN]
  exact ⟨rfl, rfl, rfl, rfl, rfl, rfl⟩

/-- Settles O54: the meanings are the statement's updates, and a step that finds 0xEA fetches NOP with PC past it. -/
theorem flagInstructionsSetOneFlag : Obligations.FlagInstructionsSetOneFlag := by
  refine ⟨rfl, fun s => ⟨rfl, rfl, rfl, rfl, rfl, rfl, rfl, rfl⟩, ?_⟩
  intro s hrun hflat hbyte himpl
  have hform : decodeOpcode (s.mem.byteAt s.pc) = .op0 .nop := congrArg decodeOpcode hbyte
  calc step s = exec .nop { s with pc := s.pc + 1 } := step_flat_of_op0 hflat (hbyte ▸ himpl) hform hrun
    _ = .next { s with pc := s.pc + 1 } := rfl

/-- Settles O55: one more and one less are those sums modulo 256, and Z and N are `SetZN`'s of the result. -/
theorem indexIncDecWraps : Obligations.IndexIncDecWraps := by
  refine ⟨rfl, fun s => ?_⟩
  simp only [← byte_add_one_eq, ← byte_sub_one_eq, ← Status.setZN_eq_withZN]
  exact ⟨rfl, rfl, rfl, rfl⟩

end Sys2Proof.Machine
end

section
/-!
Faults (spec/60_exceptions.md R301, R302, R308): the step port at a step that faults and at one that is refused, the two answers of
the oracle's read, and the step whose opcode fetch violates or finds a byte outside `IMPLEMENTED_OPCODES`; then the statements they
settle.
-/

namespace Sys2Proof.Machine

/-! ## The step port -/

theorem stepPort_of_fault {s : State} {f : Fault} (h : step s = .fault f) : stepPort s = afterFault f s := by
  simp [stepPort, h]

theorem step_of_faulted {s : State} {f : Fault} (h : s.run = .faulted f) : step s = .refused (.runFaulted f) := by
  simp [step, h]

theorem stepPort_of_refused {s : State} {r : Refusal} (h : step s = .refused r) : stepPort s = s := by
  simp [stepPort, h]

theorem discardOracle_flat {s : State} (h : s.params.backend = .flat) : discardOracle s = s := by
  simp [discardOracle, h]

theorem discardOracle_oracle {s : State} (h : s.params.backend = .oracle) :
    discardOracle s = { s with oracle := Oracle.empty } := by
  simp [discardOracle, h]

/-! ## The oracle's read -/

section Oracle
variable {s : State} (h : s.params.backend = .oracle) {a : Addr}
include h

/-- Neither an address without an expectation nor one whose expectation is spent can be read (R74). -/
theorem readByte_oracle_undeclared (hlive : ∀ v, tableGet a.toNat s.oracle.expRead ≠ some (v, true)) :
    readByte a s = .error (.readUndeclared a) := by
  have hread : oracleRead s.params.readPolicy a s.oracle = .error (.readUndeclared a) := by
    unfold oracleRead
    split
    · rfl
    · rfl
    · exact absurd ‹_› (hlive _)
  simp [readByte, h, hread]

/-- A live expectation is answered under both policies, which differ in the state after the read alone (R74). -/
theorem readByte_oracle_live {v : Byte} (hlive : tableGet a.toNat s.oracle.expRead = some (v, true)) :
    ∃ t, readByte a s = .ok (v, t) := by
  cases hpolicy : s.params.readPolicy with
  | persistent => simp [readByte, h, oracleRead, hlive, hpolicy]
  | consumeOnce => simp [readByte, h, oracleRead, hlive, hpolicy]

end Oracle

/-! ## The step that ends at its opcode fetch -/

/-- The address of the fault is one before PC, because the fetch has passed the opcode byte (R302). -/
theorem exec_unimplemented (op : Byte) (s : State) :
    exec (.unimplemented op) s = .fault (.unimplementedOpcode op (s.pc - 1)) := rfl

section OpcodeFetch
variable {s : State} (hrun : s.run = .running)
include hrun

theorem step_of_opcode_read_error {f : Fault} (hread : readByte s.pc s = .error f) : step s = .fault f := by
  simp [step, hrun, fetchInstr, fetch8, hread]

/-- Whatever the backend: only the opcode byte is read, and the fault names it and its address. -/
theorem step_of_unimplemented_byte {op : Byte} {t : State} (hread : readByte s.pc s = .ok (op, t))
    (himpl : op ∉ s.params.implemented) : step s = .fault (.unimplementedOpcode op s.pc) := by
  have hkept : ReadOnly s t := readByte_readOnly hread
  have hpc : t.pc = s.pc := by rw [hkept.eq_oracle]
  have hfetch : fetchInstr s = .ok (.unimplemented op, { t with pc := s.pc + 1 }) := by
    simp [fetchInstr, fetch8, hread, hpc, hkept.params, himpl]
  calc step s = endStep (exec (.unimplemented op) { t with pc := s.pc + 1 }) := by simp [step, hrun, hfetch]
    _ = .fault (.unimplementedOpcode op (s.pc + 1 - 1)) := rfl
    _ = .fault (.unimplementedOpcode op s.pc) := by rw [BitVec.add_sub_cancel]

end OpcodeFetch

theorem afterFault_unimplemented_flat {s : State} (h : s.params.backend = .flat) (op : Byte) (a : Addr) :
    afterFault (.unimplementedOpcode op a) s =
      { s with pc := s.pc + 1, run := .faulted (.unimplementedOpcode op a) } := by
  simp [afterFault, registersAfterFault, discardOracle_flat, h]

theorem afterFault_unimplemented_oracle {s : State} (h : s.params.backend = .oracle) (op : Byte) (a : Addr) :
    afterFault (.unimplementedOpcode op a) s =
      { s with pc := s.pc + 1, run := .faulted (.unimplementedOpcode op a), oracle := Oracle.empty } := by
  simp [afterFault, registersAfterFault, discardOracle_oracle, h]

/-! ## The statements -/

/-- Settles O10: the opcode fetch is a read of either backend, and the fault's state is that of `afterFault`. -/
theorem unimplementedOpcodeIsPrecise : Obligations.UnimplementedOpcodeIsPrecise := by
  refine ⟨exec_unimplemented, ?_, fun s hrun horacle => ⟨?_, ?_⟩⟩
  · intro s hrun hflat himpl
    have hstep := step_of_unimplemented_byte hrun (readByte_flat hflat s.pc) himpl
    exact ⟨hstep, (stepPort_of_fault hstep).trans (afterFault_unimplemented_flat hflat _ _)⟩
  · intro op hlive himpl
    obtain ⟨t, hread⟩ := readByte_oracle_live horacle hlive
    have hstep := step_of_unimplemented_byte hrun hread himpl
    exact ⟨hstep, (stepPort_of_fault hstep).trans (afterFault_unimplemented_oracle horacle _ _)⟩
  · intro hlive
    exact step_of_opcode_read_error hrun (readByte_oracle_undeclared horacle hlive)

/-- Settles O9: `afterFault` sets RunState, a refused step leaves the state, and both launches set RunState to Running. -/
theorem faultIsFinal : Obligations.FaultIsFinal := by
  refine ⟨?_, ?_, State.fresh_run, verificationLaunch_run⟩
  · intro s f _ hstep
    rw [stepPort_of_fault hstep, afterFault_run]
  · intro s f hrun
    have hstep := step_of_faulted hrun
    exact ⟨hstep, stepPort_of_refused hstep⟩

end Sys2Proof.Machine
end

section
/-!
Encoding and decoding (spec/30_encoding.md R100 to R106): the three lengths of an encoding, what the decoder answers for each form of
an opcode, and the records behind the forms; then the statements they settle.
-/

namespace Sys2Proof

/-! ## From an instruction to its bytes -/

/-- A well-formed instruction's encoding has one, two or three bytes, and its opcode's form makes it from the rest of them. -/
theorem encode_cases {i : Instr} (hwf : i.wf = true) :
    (∃ op, encode i = [op] ∧ decodeOpcode op = .op0 i) ∨
    (∃ op b k, encode i = [op, b] ∧ decodeOpcode op = .op1 k ∧ k b = i) ∨
    ∃ op lo hi k, encode i = [op, lo, hi] ∧ decodeOpcode op = .op2 k ∧ k (joinBytes hi lo) = i := by
  have hform := encodeForm i hwf
  split at hform
  · next op henc => exact .inl ⟨op, henc, hform⟩
  · next op b henc =>
    obtain ⟨k, hk, hi⟩ := hform
    exact .inr (.inl ⟨op, b, k, henc, hk, hi⟩)
  · next op lo hi henc =>
    obtain ⟨k, hk, hi⟩ := hform
    exact .inr (.inr ⟨op, lo, _, k, henc, hk, hi⟩)
  · exact hform.elim

theorem instrOpcode_of_encode {i : Instr} {op : Byte} {operands : List Byte} (henc : encode i = op :: operands) :
    instrOpcode i = op := by
  rw [instrOpcode, henc]

/-- Every encoding begins with the opcode. -/
theorem encode_getElem?_zero (i : Instr) : (encode i)[0]? = some (instrOpcode i) := by
  have hne : encode i ≠ [] := by cases i <;> exact List.cons_ne_nil _ _
  obtain ⟨op, operands, henc⟩ := List.exists_cons_of_ne_nil hne
  rw [instrOpcode_of_encode henc, henc]
  rfl

section Decode
variable {op : Byte} (rest : List Byte)

theorem decode_of_op0 {i : Instr} (hform : decodeOpcode op = .op0 i) : decode (op :: rest) = .ok (i, rest) := by
  simp [decode, hform]

theorem decode_of_op1 {k : Byte → Instr} (hform : decodeOpcode op = .op1 k) (b : Byte) :
    decode (op :: b :: rest) = .ok (k b, rest) := by
  simp [decode, hform]

theorem decode_of_op2 {k : Addr → Instr} (hform : decodeOpcode op = .op2 k) (lo hi : Byte) :
    decode (op :: lo :: hi :: rest) = .ok (k (joinBytes hi lo), rest) := by
  simp [decode, hform]

end Decode

/-! ## From an opcode to the instructions of its form -/

/-- A documented opcode has its record's form, and any other byte is the unimplemented instruction. -/
theorem decodeOpcode_cases (op : Byte) :
    (∃ r ∈ opcodeTable, r.opcode = op ∧ decodeOpcode op = r.form) ∨
    (op ∉ documentedOpcodes ∧ decodeOpcode op = .op0 (.unimplemented op)) := by
  cases hfind : findRecord op opcodeTable with
  | some r =>
    obtain ⟨hmem, hop⟩ := findRecord_some hfind
    exact .inl ⟨r, hmem, hop, by simp [decodeOpcode, hfind]⟩
  | none => exact .inr ⟨findRecord_eq_none.mp hfind, by simp [decodeOpcode, hfind]⟩

section Forms
variable {op : Byte}

theorem encode_of_op0 {i : Instr} (hform : decodeOpcode op = .op0 i) : encode i = [op] ∧ i.wf = true := by
  rcases decodeOpcode_cases op with ⟨r, hr, rfl, hrf⟩ | ⟨hundoc, hu⟩
  · have hmakes := opcodeTable_makes r hr
    rwa [InstrRecord.Makes, ← hrf, hform] at hmakes
  · rw [hu] at hform
    cases hform
    exact ⟨rfl, by simpa [Instr.wf] using hundoc⟩

theorem encode_of_op1 {k : Byte → Instr} (hform : decodeOpcode op = .op1 k) (b : Byte) :
    encode (k b) = [op, b] ∧ (k b).wf = true := by
  rcases decodeOpcode_cases op with ⟨r, hr, rfl, hrf⟩ | ⟨_, hu⟩
  · have hmakes := opcodeTable_makes r hr
    rw [InstrRecord.Makes, ← hrf, hform] at hmakes
    exact hmakes b
  · rw [hu] at hform
    cases hform

theorem encode_of_op2 {k : Addr → Instr} (hform : decodeOpcode op = .op2 k) (w : Addr) :
    encode (k w) = [op, loByte w, hiByte w] ∧ (k w).wf = true := by
  rcases decodeOpcode_cases op with ⟨r, hr, rfl, hrf⟩ | ⟨_, hu⟩
  · have hmakes := opcodeTable_makes r hr
    rw [InstrRecord.Makes, ← hrf, hform] at hmakes
    exact hmakes w
  · rw [hu] at hform
    cases hform

/-- No record makes the unimplemented instruction, so the form tells whether a byte is documented. -/
theorem decodeOpcode_eq_unimplemented : decodeOpcode op = .op0 (.unimplemented op) ↔ op ∉ documentedOpcodes := by
  constructor
  · intro hform
    simpa [Instr.wf] using (encode_of_op0 hform).2
  · intro hundoc
    rcases decodeOpcode_cases op with ⟨r, hr, rfl, _⟩ | ⟨_, hu⟩
    · exact absurd (List.mem_map_of_mem hr) hundoc
    · exact hu

end Forms

/-! ## The opcode map as a list -/

/-- R106's list against R103's map, byte by byte. -/
theorem mem_unimplementedBytes : ∀ op : Byte, op ∈ unimplementedBytes ↔ op ∉ documentedOpcodes := by
  decide +kernel

/-- The rows list their opcodes in rising order. -/
theorem documentedOpcodes_rising : documentedOpcodes.IsChain (· < ·) := by
  decide +kernel

theorem opcodeTable_lengths : ∀ r ∈ opcodeTable, r.mode.length = r.form.operandBytes + 1 := by
  decide +kernel

/-! ## The statements -/

/-- Settles O2: each length of an encoding meets the decoder's arm for the form of its opcode. -/
theorem decodingInvertsEncoding : Obligations.DecodingInvertsEncoding := by
  intro i rest hwf
  rcases encode_cases hwf with ⟨op, henc, hform⟩ | ⟨op, b, k, henc, hform, rfl⟩ | ⟨op, lo, hi, k, henc, hform, rfl⟩
  · exact henc ▸ decode_of_op0 rest hform
  · exact henc ▸ decode_of_op1 rest hform b
  · exact henc ▸ decode_of_op2 rest hform lo hi

/-- Settles O3: each arm of the decoder that answers has taken the bytes that its instruction encodes to. -/
theorem encodingInvertsDecoding : Obligations.EncodingInvertsDecoding := by
  intro bytes rest i hdec
  unfold decode at hdec
  split at hdec
  · cases hdec
  · split at hdec
    · next i _ hform =>
      cases hdec
      obtain ⟨henc, hwf⟩ := encode_of_op0 hform
      exact ⟨by rw [henc]; rfl, hwf⟩
    · next k b _ hform =>
      cases hdec
      obtain ⟨henc, hwf⟩ := encode_of_op1 hform b
      exact ⟨by rw [henc]; rfl, hwf⟩
    · cases hdec
    · next k lo hi _ hform =>
      cases hdec
      obtain ⟨henc, hwf⟩ := encode_of_op2 hform (joinBytes hi lo)
      exact ⟨by rw [henc, loByte_joinBytes, hiByte_joinBytes]; rfl, hwf⟩
    · cases hdec

/-- Settles O4: the list is compared with the map byte by byte, and the map with the decoder's forms. -/
theorem unimplementedBytesAreTheRest : Obligations.UnimplementedBytesAreTheRest :=
  ⟨rfl, rfl, fun op =>
    ⟨mem_unimplementedBytes op, (mem_unimplementedBytes op).trans decodeOpcode_eq_unimplemented.symm⟩⟩

/-- Settles O5: opcodes that rise along the map are different, and the lengths are compared record by record. -/
theorem opcodeMapIsConsistent : Obligations.OpcodeMapIsConsistent := by
  have hrise : opcodeTable.Pairwise fun r q => r.opcode < q.opcode :=
    List.pairwise_map.mp documentedOpcodes_rising.pairwise
  exact ⟨hrise.imp BitVec.ne_of_lt, opcodeTable_lengths⟩

/-- Settles O1: the nine lists of bytes are run through the decoder. -/
theorem sampleWordsDecode : Obligations.SampleWordsDecode := ⟨rfl, rfl, rfl, rfl, rfl, rfl, rfl, rfl, rfl⟩

end Sys2Proof
end

section
/-!
The step (spec/40_execution.md R120, R121; spec/70_reset_and_hazards.md R330; spec/10_state.md section 2): the flat fetch of each form
of an opcode, P as a byte, and what a step and a fault leave alone; then the statements they settle.
-/

namespace Sys2Proof.Machine

/-! ## The flat fetch -/

section FlatFetch
variable {s : State} (hflat : s.params.backend = .flat)
include hflat

theorem fetchInstr_flat_of_op1 {k : Byte → Instr} (himpl : s.mem.byteAt s.pc ∈ s.params.implemented)
    (hform : decodeOpcode (s.mem.byteAt s.pc) = .op1 k) :
    fetchInstr s = .ok (k (s.mem.byteAt (s.pc + 1)), { s with pc := s.pc + 2 }) := by
  simp [fetchInstr, fetch8_flat, hflat, himpl, hform, BitVec.add_assoc]

theorem fetchInstr_flat_of_op2 {k : Addr → Instr} (himpl : s.mem.byteAt s.pc ∈ s.params.implemented)
    (hform : decodeOpcode (s.mem.byteAt s.pc) = .op2 k) :
    fetchInstr s =
      .ok (k (joinBytes (s.mem.byteAt (s.pc + 2)) (s.mem.byteAt (s.pc + 1))), { s with pc := s.pc + 3 }) := by
  simp [fetchInstr, fetch8_flat, fetch16_flat, hflat, himpl, hform, Memory.wordAt, BitVec.add_assoc]

theorem fetchInstr_flat_of_not_implemented (himpl : s.mem.byteAt s.pc ∉ s.params.implemented) :
    fetchInstr s = .ok (.unimplemented (s.mem.byteAt s.pc), { s with pc := s.pc + 1 }) := by
  simp [fetchInstr, fetch8_flat hflat, himpl]

/-- When the bytes at PC are the encoding of a well-formed instruction, the fetch of its length answers it. -/
theorem fetchInstr_flat_of_encoding {i : Instr} (hwf : i.wf = true) (himpl : s.mem.byteAt s.pc ∈ s.params.implemented)
    (hbytes : ∀ k v, (encode i)[k]? = some v → s.mem.byteAt (s.pc + BitVec.ofNat 16 k) = v) :
    fetchInstr s = .ok (i, { s with pc := s.pc + BitVec.ofNat 16 (instrLength i) }) := by
  have hopcode : s.mem.byteAt s.pc = instrOpcode i := by
    simpa using hbytes 0 (instrOpcode i) (encode_getElem?_zero i)
  rcases encode_cases hwf with ⟨op, henc, hform⟩ | ⟨op, b, k, henc, hform, rfl⟩ | ⟨op, lo, hi, k, henc, hform, rfl⟩
  · rw [← instrOpcode_of_encode henc, ← hopcode] at hform
    rw [fetchInstr_flat_of_op0 hflat himpl hform, instrLength, henc]
    rfl
  · rw [← instrOpcode_of_encode henc, ← hopcode] at hform
    have hb : s.mem.byteAt (s.pc + 1) = b := hbytes 1 b (by rw [henc]; rfl)
    rw [fetchInstr_flat_of_op1 hflat himpl hform, instrLength, henc, hb]
    rfl
  · rw [← instrOpcode_of_encode henc, ← hopcode] at hform
    have hlo : s.mem.byteAt (s.pc + 1) = lo := hbytes 1 lo (by rw [henc]; rfl)
    have hhi : s.mem.byteAt (s.pc + 2) = hi := hbytes 2 hi (by rw [henc]; rfl)
    rw [fetchInstr_flat_of_op2 hflat himpl hform, instrLength, henc, hlo, hhi]
    rfl

theorem step_flat_of_fetch {i : Instr} {t : State} (hrun : s.run = .running) (hfetch : fetchInstr s = .ok (i, t)) :
    step s = exec i t :=
  calc step s = endStep (exec i t) := by simp [step, hrun, hfetch]
    _ = exec i t := endStep_exec_flat i t ((fetchInstr_kept hfetch).params ▸ hflat)

end FlatFetch

/-! ## P as a byte -/

theorem Status.ofByte_toByte : ∀ p : Status, Status.ofByte p.toByte = p := by
  rintro ⟨n, v, d, i, z, c⟩
  revert n v d i z c
  decide

theorem Status.ofByte_pushByte : ∀ p : Status, Status.ofByte p.pushByte = p := by
  rintro ⟨n, v, d, i, z, c⟩
  revert n v d i z c
  decide

theorem Status.toByte_bits : ∀ p : Status,
    p.toByte.getLsbD 7 = p.n ∧ p.toByte.getLsbD 6 = p.v ∧ p.toByte.getLsbD 5 = true ∧ p.toByte.getLsbD 4 = false ∧
    p.toByte.getLsbD 3 = p.d ∧ p.toByte.getLsbD 2 = p.i ∧ p.toByte.getLsbD 1 = p.z ∧ p.toByte.getLsbD 0 = p.c := by
  rintro ⟨n, v, d, i, z, c⟩
  revert n v d i z c
  decide

/-- A load of P ignores bits 5 and 4 (R35), whatever the byte. -/
theorem Status.toByte_ofByte : ∀ v : Byte, (Status.ofByte v).toByte = (v ||| 0x20) &&& 0xEF := by
  decide +kernel

/-! ## The oracle after a step and after a fault -/

theorem Oracle.empty_wf : Oracle.empty.wf = true := rfl

/-- The end of an instruction leaves the backend that is not installed. -/
theorem eq_of_endInstruction_flat {s t : State} (h : endInstruction s = .ok t) (hflat : s.params.backend = .flat) :
    t = s := by
  rw [endInstruction_flat hflat] at h
  cases h
  rfl

theorem eq_of_endInstruction_oracle {s t : State} (h : endInstruction s = .ok t) (horacle : s.params.backend = .oracle) :
    t = { s with oracle := Oracle.empty } := by
  rcases endInstruction_ok h with ⟨hflat, _⟩ | ⟨_, ht⟩
  · rw [horacle] at hflat
    cases hflat
  · exact ht

theorem afterFault_oracle_flat {s : State} (hflat : s.params.backend = .flat) (f : Fault) :
    (afterFault f s).oracle = s.oracle := by
  have hregs : (registersAfterFault f s).params.backend = .flat := by rw [registersAfterFault_params, hflat]
  simp [afterFault, discardOracle_flat hregs]

theorem afterFault_oracle_oracle {s : State} (horacle : s.params.backend = .oracle) (f : Fault) :
    (afterFault f s).oracle = Oracle.empty := by
  have hregs : (registersAfterFault f s).params.backend = .oracle := by rw [registersAfterFault_params, horacle]
  simp [afterFault, discardOracle_oracle hregs]

/-- What a completed step keeps, from what its fetch and its instruction keep: the oracle is as before under the flat backend and
discarded under the oracle. -/
theorem step_next_kept {s t : State} (h : step s = .next t) :
    t.params = s.params ∧ t.run = .running ∧ (s.mem.wf = true → t.mem.wf = true) ∧
    (s.params.backend = .flat → t.oracle = s.oracle) ∧
    (s.params.backend = .oracle → t.mem = s.mem ∧ t.oracle = Oracle.empty) := by
  obtain ⟨hrun, i, u, v, hfetch, hexec, hend⟩ := step_next h
  have hkept : Kept s v := (fetchInstr_kept hfetch).trans (exec_kept hexec)
  cases hb : s.params.backend with
  | flat =>
    obtain rfl := eq_of_endInstruction_flat hend (hkept.params ▸ hb)
    exact ⟨hkept.params, hkept.run.trans hrun, hkept.memWf, fun _ => hkept.flat hb, by simp⟩
  | oracle =>
    obtain rfl := eq_of_endInstruction_oracle hend (hkept.params ▸ hb)
    exact ⟨hkept.params, hkept.run.trans hrun, hkept.memWf, by simp, fun _ => ⟨hkept.oracle hb, rfl⟩⟩

/-! ## The invariant -/

/-- The invariant asks nothing of the oracle but that it is the one before, or the empty one. -/
theorem State.Inv.of_oracle {s t : State} (hs : s.Inv) (hmem : t.mem.wf = true)
    (horacle : t.oracle = s.oracle ∨ t.oracle = Oracle.empty) : t.Inv := by
  rcases horacle with ho | ho
  · exact ⟨hmem, ho ▸ hs.oracle, ho ▸ hs.performed⟩
  · exact ⟨hmem, ho ▸ Oracle.empty_wf, congrArg Oracle.performed ho⟩

theorem step_keeps_inv {s t : State} (hs : s.Inv) (h : step s = .next t) : t.Inv := by
  obtain ⟨_, _, hmem, hflat, horacle⟩ := step_next_kept h
  refine hs.of_oracle (hmem hs.mem) ?_
  cases hb : s.params.backend with
  | flat => exact .inl (hflat hb)
  | oracle => exact .inr (horacle hb).2

theorem afterFault_keeps_inv {s : State} (hs : s.Inv) (f : Fault) : (afterFault f s).Inv := by
  refine hs.of_oracle (by rw [afterFault_mem]; exact hs.mem) ?_
  cases hb : s.params.backend with
  | flat => exact .inl (afterFault_oracle_flat hb f)
  | oracle => exact .inr (afterFault_oracle_oracle hb f)

/-! ## The statements -/

/-- Settles O15: a completed step keeps the form of memory and leaves the oracle or discards it, and so does a fault. -/
theorem stepKeepsTheInvariant : Obligations.StepKeepsTheInvariant := by
  refine ⟨fun s t => step_keeps_inv, fun s hs => ?_⟩
  cases hstep : step s with
  | next t =>
    have hport : stepPort s = t := by simp [stepPort, hstep]
    exact hport ▸ step_keeps_inv hs hstep
  | fault f => exact stepPort_of_fault hstep ▸ afterFault_keeps_inv hs f
  | refused r => exact (stepPort_of_refused hstep).symm ▸ hs

/-- Settles O16: it is what a completed step keeps, the form of memory aside. -/
theorem stepLeavesTheRestAlone : Obligations.StepLeavesTheRestAlone := by
  intro s t h
  obtain ⟨hparams, hrun, _, hflat, horacle⟩ := step_next_kept h
  exact ⟨hparams, hrun, hflat, horacle⟩

/-- Settles O6: it is the running arm of `step`. -/
theorem stepRunsTheFetchedInstruction : Obligations.StepRunsTheFetchedInstruction := by
  intro s t i hrun hfetch
  simp [step, hrun, hfetch]

/-- Settles O7: the fetch answers the instruction whose encoding is at PC, or the unimplemented one of the byte there. -/
theorem flatStepRunsTheInstructionAtPC : Obligations.FlatStepRunsTheInstructionAtPC := by
  intro s i hrun hflat hwf himpl hbytes
  refine step_flat_of_fetch hflat hrun ?_
  by_cases hmem : s.mem.byteAt s.pc ∈ s.params.implemented
  · exact fetchInstr_flat_of_encoding hflat hwf hmem hbytes
  · have hopcode : s.mem.byteAt s.pc = instrOpcode i := by
      simpa using hbytes 0 (instrOpcode i) (encode_getElem?_zero i)
    obtain ⟨op, rfl⟩ : ∃ op, i = .unimplemented op := ⟨_, himpl.resolve_left (hopcode ▸ hmem)⟩
    rw [fetchInstr_flat_of_not_implemented hflat hmem, hopcode]
    rfl

/-- Settles O12: the fields are those of `State.fresh`, and P is `RESET_REGS.P` loaded as a byte. -/
theorem freshStateFollowsReset : Obligations.FreshStateFollowsReset := by
  intro q m
  refine ⟨rfl, rfl, rfl, rfl, Status.toByte_ofByte q.resetRegs.p, rfl, rfl, fun e he => ?_, fun he => ?_⟩
  · simp [State.fresh, he]
  · simp [State.fresh, he, Memory.wordAt]

/-- Settles O13: the default parameters are read off the fresh state. -/
theorem resetHasTheDefaultValues : Obligations.ResetHasTheDefaultValues :=
  ⟨rfl, rfl, rfl, rfl, rfl, rfl, rfl, rfl, rfl⟩

/-- Settles O14: no memory is listed and the oracle is empty. -/
theorem resetSatisfiesTheInvariant : Obligations.ResetSatisfiesTheInvariant := ⟨rfl, Oracle.empty_wf, rfl⟩

/-- Settles O56: the bits are P's flags and the two wired ones, and the loads are those of P as a byte. -/
theorem statusByteHasHardwiredBits : Obligations.StatusByteHasHardwiredBits := by
  refine ⟨fun p => ?_, Status.toByte_ofByte⟩
  obtain ⟨h7, h6, h5, h4, h3, h2, h1, h0⟩ := p.toByte_bits
  exact ⟨h7, h6, h5, h4, h3, h2, h1, h0, p.ofByte_toByte, rfl, p.ofByte_pushByte⟩

end Sys2Proof.Machine
end

section
/-!
The bus contract and the oracle (spec/20_memory.md R57, R71 to R78): the memory unit's rows, the read under each policy, what a read
leaves, the end-of-instruction check of a table in canonical form, and the check of a list of accesses under two oracles; then the
statements they settle.
-/

namespace Sys2Proof.Machine

/-! ## The memory unit -/

section MemoryUnit
variable {l : BusLines} (m : Memory)

theorem memoryUnit_of_not_enabled (h : l.ctrl.getLsbD 1 = false) : memoryUnit l m = (l, m) := by
  simp only [memoryUnit, h]

theorem memoryUnit_store (h : l.ctrl = 0b10) : memoryUnit l m = (l, m.setByte l.addr l.data) := by
  simp [memoryUnit, h]

theorem memoryUnit_load (h : l.ctrl = 0b11) : memoryUnit l m = ({ l with data := m.byteAt l.addr }, m) := by
  simp [memoryUnit, h]

end MemoryUnit

/-! ## Reads under each policy -/

theorem readByte_oracle_persistent {s : State} (h : s.params.backend = .oracle)
    (hpolicy : s.params.readPolicy = .persistent) {a : Addr} {v : Byte}
    (hlive : tableGet a.toNat s.oracle.expRead = some (v, true)) : readByte a s = .ok (v, s) := by
  simp [readByte, h, oracleRead, hlive, hpolicy]

/-- The state after a read of `a` under ConsumeOnce, which has spent the expectation of `v` there. -/
def State.spend (s : State) (a : Addr) (v : Byte) : State :=
  { s with oracle := { s.oracle with expRead := tableSet a.toNat (v, false) s.oracle.expRead } }

theorem State.spend_get_same (s : State) (a : Addr) (v : Byte) :
    tableGet a.toNat (s.spend a v).oracle.expRead = some (v, false) := tableGet_tableSet_same ..

theorem State.spend_get_ne (s : State) {a : Addr} (v : Byte) {k : Nat} (hk : k ≠ a.toNat) :
    tableGet k (s.spend a v).oracle.expRead = tableGet k s.oracle.expRead := tableGet_tableSet_ne hk ..

theorem readByte_oracle_consumeOnce {s : State} (h : s.params.backend = .oracle)
    (hpolicy : s.params.readPolicy = .consumeOnce) {a : Addr} {v : Byte}
    (hlive : tableGet a.toNat s.oracle.expRead = some (v, true)) : readByte a s = .ok (v, s.spend a v) := by
  simp [readByte, h, oracleRead, hlive, hpolicy, State.spend]

/-- A read that answers had a live expectation. -/
theorem readByte_oracle_ok {s t : State} (h : s.params.backend = .oracle) {a : Addr} {v : Byte}
    (hread : readByte a s = .ok (v, t)) : tableGet a.toNat s.oracle.expRead = some (v, true) := by
  by_cases hlive : ∃ w, tableGet a.toNat s.oracle.expRead = some (w, true)
  · obtain ⟨w, hw⟩ := hlive
    obtain ⟨u, hu⟩ := readByte_oracle_live h hw
    rw [hu] at hread
    cases hread
    exact hw
  · rw [readByte_oracle_undeclared h fun w hw => hlive ⟨w, hw⟩] at hread
    cases hread

/-! ## Reads that leave the whole state -/

section Persistent
variable {s t : State} (hpolicy : s.params.readPolicy = .persistent)
include hpolicy

theorem readByte_persistent {a : Addr} {v : Byte} (hread : readByte a s = .ok (v, t)) : t = s := by
  cases hb : s.params.backend with
  | flat => exact (readByte_readOnly hread).flat hb
  | oracle =>
    rw [readByte_oracle_persistent hb hpolicy (readByte_oracle_ok hb hread)] at hread
    cases hread
    rfl

theorem readPointer_persistent {wrap : Bool} {q : Byte} {w : Addr} (hread : readPointer wrap q s = .ok (w, t)) :
    t = s := by
  simp only [readPointer, bind_eq_ok, Prod.exists] at hread
  obtain ⟨_, _, hlo, _, _, hhi, heq⟩ := hread
  cases heq
  obtain rfl := readByte_persistent hpolicy hlo
  exact readByte_persistent hpolicy hhi

theorem indirectTarget_persistent {p w : Addr} (hread : indirectTarget p s = .ok (w, t)) : t = s := by
  simp only [indirectTarget, bind_eq_ok, Prod.exists] at hread
  obtain ⟨_, _, hlo, _, _, hhi, heq⟩ := hread
  cases heq
  obtain rfl := readByte_persistent hpolicy hlo
  exact readByte_persistent hpolicy hhi

theorem resolve_persistent {m : LocMode} {l : Loc} (hread : resolve m s = .ok (l, t)) : t = s := by
  cases m with
  | indirectX b | indirectY b =>
    simp only [resolve, bind_eq_ok, Prod.exists] at hread
    obtain ⟨_, _, hptr, heq⟩ := hread
    cases heq
    exact readPointer_persistent hpolicy hptr
  | _ =>
    cases hread
    rfl

theorem readLoc_persistent {l : Loc} {v : Byte} (hread : readLoc l s = .ok (v, t)) : t = s := by
  cases l with
  | acc =>
    cases hread
    rfl
  | mem a => exact readByte_persistent hpolicy hread

theorem readSource_persistent {src : Source} {v : Byte} (hread : readSource src s = .ok (v, t)) : t = s := by
  cases src with
  | immediate w =>
    cases hread
    rfl
  | loc m =>
    simp only [readSource, bind_eq_ok, Prod.exists] at hread
    obtain ⟨_, _, hres, hloc⟩ := hread
    obtain rfl := resolve_persistent hpolicy hres
    exact readLoc_persistent hpolicy hloc

end Persistent

/-! ## The end-of-instruction check -/

/-- In canonical form the keys after the first are other keys. -/
theorem tableGet_cons_of_tail {α : Type} {lo k j : Nat} {v w : α} {t : List (Nat × α)}
    (hwf : tableFrom lo ((k, v) :: t) = true) (hget : tableGet j t = some w) :
    tableGet j ((k, v) :: t) = some w := by
  simp only [tableFrom, Bool.and_eq_true] at hwf
  have hne : k ≠ j := by
    rintro rfl
    simp [tableGet_none_of_lt (Nat.lt_succ_self k) hwf.2] at hget
  simpa [tableGet, hne] using hget

section FirstMissing
variable {done : List (Nat × Unit)} {t : List (Nat × Byte)} {lo : Nat}

theorem firstMissing_cons_performed {k : Nat} {v : Byte} (hdone : tableGet k done = some ()) :
    firstMissing done ((k, v) :: t) = firstMissing done t := by
  simp [firstMissing, hdone]

theorem firstMissing_eq_none (hwf : tableFrom lo t = true)
    (hall : ∀ k v, tableGet k t = some v → tableGet k done = some ()) : firstMissing done t = none := by
  induction t generalizing lo with
  | nil => rfl
  | cons e t ih =>
    obtain ⟨k, v⟩ := e
    rw [firstMissing_cons_performed (hall k v (by simp [tableGet]))]
    have htail := hwf
    simp only [tableFrom, Bool.and_eq_true] at htail
    exact ih htail.2 fun j w hget => hall j w (tableGet_cons_of_tail hwf hget)

/-- The keys rise, so the first one not performed is the lowest. -/
theorem firstMissing_eq_some (hwf : tableFrom lo t = true) {a : Addr} {v : Byte} (hget : tableGet a.toNat t = some v)
    (hnot : tableGet a.toNat done = none)
    (hlower : ∀ k w, k < a.toNat → tableGet k t = some w → tableGet k done = some ()) :
    firstMissing done t = some (a, v) := by
  induction t generalizing lo with
  | nil => cases hget
  | cons e t ih =>
    obtain ⟨k, w⟩ := e
    have htail := hwf
    simp only [tableFrom, Bool.and_eq_true] at htail
    by_cases hk : k = a.toNat
    · subst hk
      have hv : w = v := by simpa [tableGet] using hget
      simp [firstMissing, hnot, hv]
    · have hget' : tableGet a.toNat t = some v := by simpa [tableGet, hk] using hget
      have hlt : k < a.toNat := by
        by_contra hge
        simp [tableGet_none_of_lt (show a.toNat < k + 1 by omega) htail.2] at hget'
      rw [firstMissing_cons_performed (hlower k w hlt (by simp [tableGet]))]
      exact ih htail.2 hget' fun j x hj hx => hlower j x hj (tableGet_cons_of_tail hwf hx)

end FirstMissing

section EndOfStep
variable {s u : State} (horacle : s.params.backend = .oracle) (hkept : Kept s u)
include horacle hkept

theorem endStep_of_none_missing (hnone : missingWrite s.params.requireWrites u.oracle = none) :
    endStep (.next u) = .next { u with oracle := Oracle.empty } := by
  simp [endStep, endInstruction, hkept.params, horacle, hnone]

theorem endStep_of_missing {a : Addr} {v : Byte} (hsome : missingWrite s.params.requireWrites u.oracle = some (a, v)) :
    endStep (.next u) = .fault (.writeMissing a v) := by
  simp [endStep, endInstruction, hkept.params, horacle, hsome]

end EndOfStep

/-! ## Two oracles that agree at the addresses of a list -/

/-- Two oracles expect the same reads at the addresses a list reads, and the same writes at those it writes. -/
structure AgreeOn (l : List Access) (o o' : Oracle) : Prop where
  reads : ∀ a, .read a ∈ l → tableGet a.toNat o.expRead = tableGet a.toNat o'.expRead
  writes : ∀ a v, .write a v ∈ l → tableGet a.toNat o.expWrite = tableGet a.toNat o'.expWrite

theorem AgreeOn.tail {e : Access} {l : List Access} {o o' : Oracle} (h : AgreeOn (e :: l) o o') : AgreeOn l o o' :=
  ⟨fun a ha => h.reads a (List.mem_cons_of_mem _ ha), fun a v ha => h.writes a v (List.mem_cons_of_mem _ ha)⟩

/-- A list's verdict: accepted, or the first violation. -/
def verdict (policy : ReadPolicy) (l : List Access) (o : Oracle) : Except Fault Unit :=
  (checkAccesses policy l o).map fun _ => ()

theorem verdict_eq_ok {policy : ReadPolicy} {l : List Access} {o : Oracle} :
    verdict policy l o = .ok () ↔ ∃ q, checkAccesses policy l o = .ok q := by
  cases h : checkAccesses policy l o <;> simp [verdict, h, Except.map]

theorem verdict_eq_error {policy : ReadPolicy} {l : List Access} {o : Oracle} {f : Fault} :
    verdict policy l o = .error f ↔ checkAccesses policy l o = .error f := by
  cases h : checkAccesses policy l o <;> simp [verdict, h, Except.map]

/-- Spending the same expectation in both oracles keeps the agreement. -/
theorem AgreeOn.spend {l : List Access} {o o' : Oracle} (h : AgreeOn l o o') (k : Nat) (e : Byte × Bool) :
    AgreeOn l { o with expRead := tableSet k e o.expRead } { o' with expRead := tableSet k e o'.expRead } :=
  ⟨fun a ha => by rw [tableGet_tableSet, tableGet_tableSet, h.reads a ha], h.writes⟩

theorem verdict_congr {policy : ReadPolicy} {l : List Access} {o o' : Oracle} (h : AgreeOn l o o') :
    verdict policy l o = verdict policy l o' := by
  induction l generalizing o o' with
  | nil => rfl
  | cons e l ih =>
    cases e with
    | read a =>
      have ha := h.reads a (List.mem_cons_self ..)
      unfold verdict checkAccesses oracleRead
      rw [← ha]
      cases tableGet a.toNat o.expRead with
      | none => rfl
      | some e =>
        obtain ⟨v, live⟩ := e
        cases live with
        | false => rfl
        | true =>
          cases policy with
          | persistent => exact ih h.tail
          | consumeOnce => exact ih (h.tail.spend _ _)
    | write a v =>
      have ha := h.writes a v (List.mem_cons_self ..)
      unfold verdict checkAccesses oracleWrite
      rw [← ha]
      cases tableGet a.toNat o.expWrite with
      | none => rfl
      | some e =>
        by_cases hev : e = v
        · simp only [hev, if_true]
          exact ih ⟨h.tail.reads, h.tail.writes⟩
        · simp only [hev, if_false]

/-! ## The statements -/

/-- Settles O18: one row of the memory unit for each value of the control lines. -/
theorem memoryUnitHonoursTheControlLines : Obligations.MemoryUnitHonoursTheControlLines := by
  refine fun l m => ⟨fun h => ?_, fun h => ?_, memoryUnit_load m⟩
  · exact memoryUnit_of_not_enabled m (by rcases h with h | h <;> rw [h] <;> rfl)
  · rw [memoryUnit_store m h]
    exact ⟨rfl, Memory.byteAt_setByte_same .., fun b hb => Memory.byteAt_setByte_ne m hb l.data⟩

/-- Settles O19: a spent expectation is not live, so its second read is undeclared. -/
theorem oracleReadFollowsItsExpectation : Obligations.OracleReadFollowsItsExpectation := by
  intro s a h
  refine ⟨readByte_oracle_undeclared h, fun v hlive => ⟨fun hpolicy => ?_, fun hpolicy => ?_⟩⟩
  · exact readByte_oracle_persistent h hpolicy hlive
  · refine ⟨s.spend a v, readByte_oracle_consumeOnce h hpolicy hlive, ?_, s.spend_get_same a v,
      fun k => s.spend_get_ne v, rfl⟩
    refine readByte_oracle_undeclared (s := s.spend a v) h fun w => ?_
    simp [s.spend_get_same a v]

/-- Settles O21: each registration is one or two writes of a table. -/
theorem registrationSetsOneExpectation : Obligations.RegistrationSetsOneExpectation := by
  intro o a v w k
  refine ⟨tableGet_tableSet .., tableGet_tableSet .., ?_, rfl, rfl⟩
  simp only [setReadWordTarget, setReadTarget, tableGet_tableSet]

/-- Settles O25: the write table is in canonical form, so its first address not performed is the lowest. -/
theorem unperformedWriteIsReportedLowestFirst : Obligations.UnperformedWriteIsReportedLowestFirst := by
  intro s t u i hrun horacle hfetch hexec hinv
  have hkept : Kept s u := (fetchInstr_kept hfetch).trans (exec_kept hexec)
  have hstep : step s = endStep (.next u) := by simp [step, hrun, hfetch, hexec]
  have hwf : tableFrom 0 u.oracle.expWrite = true := by
    have hu := hkept.oracleWf hinv.oracle
    simp only [Oracle.wf, Bool.and_eq_true] at hu
    exact hu.1.2
  rw [hstep]
  refine ⟨fun hreq => ?_, fun hall => ?_, fun hreq a v hget hnot hlower => ?_⟩
  · exact endStep_of_none_missing horacle hkept (by simp [missingWrite, hreq])
  · exact endStep_of_none_missing horacle hkept (by simp [missingWrite, firstMissing_eq_none hwf hall])
  · exact endStep_of_missing horacle hkept (by simp [missingWrite, hreq, firstMissing_eq_some hwf hget hnot hlower])

/-- Settles O26: by induction on the list, the two oracles answer each access alike and agree on the rest. -/
theorem verdictIgnoresOtherExpectations : Obligations.VerdictIgnoresOtherExpectations := by
  intro policy l o o' hreads hwrites
  have hsame : verdict policy l o = verdict policy l o' := verdict_congr ⟨hreads, hwrites⟩
  exact ⟨by rw [← verdict_eq_ok, ← verdict_eq_ok, hsame], fun f => by rw [← verdict_eq_error, ← verdict_eq_error, hsame]⟩

/-- Settles O27: every one of the three is a sequence of reads, and a read under Persistent leaves the whole state. -/
theorem readingChangesNothingElse : Obligations.ReadingChangesNothingElse := by
  intro s t h
  have hread : ReadOnly s t ∧ (s.params.readPolicy = .persistent → t = s) := by
    rcases h with ⟨m, l, h⟩ | ⟨src, v, h⟩ | ⟨p, w, h⟩
    · exact ⟨resolve_readOnly h, fun hp => resolve_persistent hp h⟩
    · exact ⟨readSource_readOnly h, fun hp => readSource_persistent hp h⟩
    · exact ⟨indirectTarget_readOnly h, fun hp => indirectTarget_persistent hp h⟩
  exact ⟨hread.1.eq, hread.1.flat, hread.2⟩

end Sys2Proof.Machine
end

section
/-!
The pointer modes (spec/40_execution.md R138, R139) with the pointer's two addresses as sums of naturals, the flat backend's resolver
against the table of R143, and SBC, the compares and BIT (spec/42_alu.md R181, R183, R187 to R190) as effects on the operand read;
then the statements they settle.
-/

namespace Sys2Proof

theorem zext16_eq_ofNat (b : Byte) : zext16 b = BitVec.ofNat 16 b.toNat := by
  rw [← zext16_toNat, BitVec.ofNat_toNat, BitVec.setWidth_eq]

theorem not_byte_toNat (m : Byte) : (~~~m).toNat = 255 - m.toNat := BitVec.toNat_not ..

theorem not_byte_toInt (m : Byte) : (~~~m).toInt = -m.toInt - 1 := by
  rw [byte_toInt, byte_toInt, not_byte_toNat]
  split <;> split <;> omega

end Sys2Proof

namespace Sys2Proof.Machine

/-! ## Zero-page pointers -/

/-- The two places of a pointer's high byte (R138, R139), as naturals. -/
theorem pointerHigh_eq_ofNat (wrap : Bool) (q : Byte) :
    pointerHigh wrap q = BitVec.ofNat 16 (if wrap then (q.toNat + 1) % 256 else q.toNat + 1) := by
  cases wrap with
  | true => exact (zext16_eq_ofNat (q + 1)).trans (congrArg (BitVec.ofNat 16) (BitVec.toNat_add q 1))
  | false => exact (congrArg (· + 1) (zext16_eq_ofNat q)).trans (BitVec.ofNat_add q.toNat 1).symm

theorem readPointer_of_reads {wrap : Bool} {q lo hi : Byte} {s t u : State} (hlo : readByte (zext16 q) s = .ok (lo, t))
    (hhi : readByte (pointerHigh wrap q) t = .ok (hi, u)) : readPointer wrap q s = .ok (joinBytes hi lo, u) := by
  simp [readPointer, hlo, hhi]

/-! ## The resolver under the flat backend -/

section FlatResolve
variable {s : State} (hflat : s.params.backend = .flat) {m : LocMode}
include hflat

/-- The resolver's address is that of R143's table. -/
theorem resolve_flat_of_flatEa {a : Addr} (hea : flatEa m s = some a) : resolve m s = .ok (.mem a, s) := by
  cases m with
  | accumulator => cases hea
  | indirectX | indirectY =>
    cases hea
    simp [resolve, readPointer_flat hflat, flatPointer]
  | _ =>
    cases hea
    rfl

theorem readSource_flat_of_flatEa {a : Addr} (hea : flatEa m s = some a) :
    readSource (.loc m) s = .ok (s.mem.byteAt a, s) := by
  simp [readSource, resolve_flat_of_flatEa hflat hea, readLoc, readByte_flat hflat]

end FlatResolve

theorem flatEa_eq_none {m : LocMode} {s : State} : flatEa m s = none ↔ m = .accumulator := by
  cases m <;> simp [flatEa]

/-! ## SBC -/

/-- What SBC does with its operand (R183). -/
def subtractFromA (m : Byte) (s : State) : State := addToA (~~~m) s

theorem sbc_eq_readThen : sbc = readThen subtractFromA := rfl

theorem sbcForms_run_sbc : FormsRun sbcForms sbc := formsRun_of_map_eq fun _ _ => rfl

section Borrow
variable (a m : Byte) (cin : Bool)

theorem subtract_r_toNat :
    ((addWithCarry a (~~~m) cin).r.toNat : Int) = ((a.toNat : Int) - m.toNat - (1 - cin.toNat)) % 256 := by
  rw [addWithCarry_r_toNat, not_byte_toNat]
  omega

theorem subtract_c :
    (addWithCarry a (~~~m) cin).c = decide (0 ≤ (a.toNat : Int) - m.toNat - (1 - cin.toNat)) := by
  rw [addWithCarry_c, not_byte_toNat, decide_eq_decide]
  omega

/-- The adder's rule for V with the operand's complement: the signs of A and the operand differ, and those of A and the result. -/
theorem subtract_v : (addWithCarry a (~~~m) cin).v =
    (((a ^^^ m) &&& (a ^^^ (addWithCarry a (~~~m) cin).r) &&& 0x80) != 0) := by
  rw [addWithCarry_v, and_0x80_ne_zero, and_0x80_ne_zero]
  generalize (addWithCarry a (~~~m) cin).r = r
  have hsign : (~~~m).getLsbD 7 = !m.getLsbD 7 := by simp
  simp only [BitVec.getLsbD_and, BitVec.getLsbD_xor, hsign]
  cases a.getLsbD 7 <;> cases m.getLsbD 7 <;> cases r.getLsbD 7 <;> rfl

theorem subtract_v_iff : (addWithCarry a (~~~m) cin).v = true ↔
    ¬(-128 ≤ a.toInt - m.toInt - (1 - cin.toNat) ∧ a.toInt - m.toInt - (1 - cin.toNat) ≤ 127) := by
  rw [addWithCarry_v_iff, not_byte_toInt]
  omega

end Borrow

/-! ## D and the adder -/

theorem bind_map_comm {ε α α' β β' : Type} {x : Except ε α} {φ : α → α'} {ψ : β → β'} {f : α → Except ε β}
    {g : α' → Except ε β'} (h : ∀ a, g (φ a) = (f a).map ψ) : (x.map φ >>= g) = (x >>= f).map ψ := by
  cases x with
  | error e => rfl
  | ok a => exact h a

/-- A change `φ` of the registers alone neither changes what a read answers nor is changed by it. -/
theorem readByte_map {φ : State → State} {s : State} (hparams : (φ s).params = s.params) (hmem : (φ s).mem = s.mem)
    (horacle : ∀ o, { φ s with oracle := o } = φ { s with oracle := o }) (a : Addr) :
    readByte a (φ s) = (readByte a s).map (Prod.map id φ) := by
  have ho : (φ s).oracle = s.oracle := (congrArg State.oracle (horacle s.oracle)).symm
  unfold readByte
  rw [hparams, hmem, ho]
  cases s.params.backend with
  | flat => rfl
  | oracle =>
    cases oracleRead s.params.readPolicy a s.oracle with
    | error f => rfl
    | ok r =>
      have ht := horacle r.2
      simp only [hparams, hmem] at ht
      exact congrArg (fun t => Except.ok (r.1, t)) ht

section WithD
variable (d : Bool) (s : State)

theorem readByte_withD (a : Addr) : readByte a (withD d s) = (readByte a s).map (Prod.map id (withD d)) :=
  readByte_map rfl rfl (fun _ => rfl) a

theorem readPointer_withD (wrap : Bool) (q : Byte) :
    readPointer wrap q (withD d s) = (readPointer wrap q s).map (Prod.map id (withD d)) := by
  rw [readPointer, readByte_withD]
  refine bind_map_comm fun r => ?_
  exact (congrArg (· >>= _) (readByte_withD d r.2 _)).trans (bind_map_comm fun _ => rfl)

theorem resolve_withD (m : LocMode) : resolve m (withD d s) = (resolve m s).map (Prod.map id (withD d)) := by
  cases m with
  | indirectX b => exact (congrArg (· >>= _) (readPointer_withD d s _ _)).trans (bind_map_comm fun _ => rfl)
  | indirectY b => exact (congrArg (· >>= _) (readPointer_withD d s _ _)).trans (bind_map_comm fun _ => rfl)
  | _ => rfl

theorem readLoc_withD (l : Loc) : readLoc l (withD d s) = (readLoc l s).map (Prod.map id (withD d)) := by
  cases l with
  | acc => rfl
  | mem a => exact readByte_withD d s a

theorem readSource_withD (src : Source) :
    readSource src (withD d s) = (readSource src s).map (Prod.map id (withD d)) := by
  cases src with
  | immediate v => rfl
  | loc m =>
    rw [readSource, resolve_withD]
    exact bind_map_comm fun r => readLoc_withD d r.2 r.1

theorem readThen_withD {effect : Byte → State → State} (heffect : ∀ m t, effect m (withD d t) = withD d (effect m t))
    (src : Source) : readThen effect src (withD d s) = (readThen effect src s).map (withD d) := by
  rw [readThen, readSource_withD]
  exact bind_map_comm fun r => congrArg Except.ok (heffect r.1 r.2)

end WithD

/-- With another value of D the instruction answers the same state but for D, or the same fault. -/
def IgnoresD (i : Instr) : Prop :=
  ∀ (s : State) (d : Bool), (∀ t, exec i s = .next t → exec i (withD d s) = .next (withD d t)) ∧
    ∀ e, exec i s = .fault e → exec i (withD d s) = .fault e

theorem FormsRun.ignoresD {forms : Byte → Addr → List (Instr × Source)} {effect : Byte → State → State}
    (hrun : FormsRun forms (readThen effect)) (heffect : ∀ d m t, effect m (withD d t) = withD d (effect m t))
    {b : Byte} {w : Addr} {f : Instr × Source} (hf : f ∈ forms b w) : IgnoresD f.1 := by
  intro s d
  have hd : exec f.1 (withD d s) = finish ((readThen effect f.2 s).map (withD d)) := by
    rw [hrun b w f hf, readThen_withD d s (heffect d)]
  rw [hd, hrun b w f hf s]
  cases readThen effect f.2 s with
  | ok t =>
    refine ⟨fun t' ht => ?_, fun e he => ?_⟩
    · cases ht
      rfl
    · cases he
  | error e =>
    refine ⟨fun t' ht => ?_, fun e' he => ?_⟩
    · cases ht
    · cases he
      rfl

theorem addToA_withD (d : Bool) (m : Byte) (s : State) : addToA m (withD d s) = withD d (addToA m s) := rfl

/-! ## The compares and BIT -/

/-- What CMP, CPX and CPY do with their operand (R181), `reg` being the register they compare. -/
def compareWith (reg : State → Byte) (m : Byte) (s : State) : State := { s with p := s.p.compare (reg s) m }

theorem cmp_eq_readThen : cmp = readThen (compareWith State.a) := rfl

theorem cpx_eq_readThen : cpx = readThen (compareWith State.x) := rfl

theorem cpy_eq_readThen : cpy = readThen (compareWith State.y) := rfl

theorem cmpForms_run_cmp : FormsRun cmpForms cmp := formsRun_of_map_eq fun _ _ => rfl

theorem cpxForms_run_cpx : FormsRun cpxForms cpx := formsRun_of_map_eq fun _ _ => rfl

theorem cpyForms_run_cpy : FormsRun cpyForms cpy := formsRun_of_map_eq fun _ _ => rfl

theorem Status.compare_eq (p : Status) (r m : Byte) : p.compare r m = { p with
    c := decide (m.toNat ≤ r.toNat), z := decide (r = m), n := decide (128 ≤ (r.toNat + (256 - m.toNat)) % 256) } := by
  have hz : (r - m).toNat = 0 ↔ r = m := by bv_omega
  have hn : (r - m).toNat = (r.toNat + (256 - m.toNat)) % 256 := by
    rw [BitVec.toNat_sub, Nat.add_comm]
  rw [Status.compare, Status.setZN_eq, decide_eq_decide.mpr hz, hn]

theorem FormsRun.compareRule {forms : Byte → Addr → List (Instr × Source)} {ops : List Byte} {reg : State → Byte}
    (hrun : FormsRun forms (readThen (compareWith reg))) (hops : HasOpcodes forms ops)
    (hreg : ∀ (s : State) o, reg { s with oracle := o } = reg s) : CompareRule forms ops reg := by
  refine ⟨hops, hrun.faultsWithItsRead_of_readThen, ?_⟩
  intro b w f hf s t m hm
  rw [hrun.exec_of_readThen hf hm, compareWith, hreg, Status.compare_eq]

/-- What BIT does with its operand (R190). -/
def testBits (m : Byte) (s : State) : State := { s with p := s.p.bitTest s.a m }

theorem bitOp_eq_readThen : bitOp = readThen testBits := rfl

theorem bitForms_run_bitOp : FormsRun bitForms bitOp := formsRun_of_map_eq fun _ _ => rfl

/-! ## The statements -/

/-- Settles O30: the pointer is at the sum, and the mode's two reads are the two of the statement. -/
theorem indirectXReadsItsPointer : Obligations.IndirectXReadsItsPointer := by
  intro s t u b lo hi q hlo hhi
  have hq : (b + s.x).toNat = q := BitVec.toNat_add b s.x
  rw [← hq, ← zext16_eq_ofNat] at hlo
  rw [← hq, ← pointerHigh_eq_ofNat] at hhi
  rw [← joinBytes_eq_ofNat]
  simp [resolve, readPointer_of_reads hlo hhi]

/-- Settles O31: Y is as before the reads, and the word they make is extended by it in full. -/
theorem indirectYAddsYToItsPointer : Obligations.IndirectYAddsYToItsPointer := by
  intro s t u b lo hi hlo hhi
  rw [← zext16_eq_ofNat] at hlo
  rw [← pointerHigh_eq_ofNat] at hhi
  have hy : u.y = s.y := by rw [((readByte_readOnly hlo).trans (readByte_readOnly hhi)).eq]
  rw [BitVec.ofNat_add, ← joinBytes_eq_ofNat, ← zext16_eq_ofNat]
  simp [resolve, readPointer_of_reads hlo hhi, hy]

/-- Settles O32: the resolver follows R143's table, which has no address for Accumulator alone. -/
theorem flatOperandsAreAlwaysReadable : Obligations.FlatOperandsAreAlwaysReadable := by
  intro s m hflat
  split
  · next a hea => exact ⟨resolve_flat_of_flatEa hflat hea, readSource_flat_of_flatEa hflat hea⟩
  · next hea =>
    obtain rfl := flatEa_eq_none.mp hea
    exact ⟨rfl, rfl, rfl⟩

/-- Settles O36: every form runs the adder on the operand's complement, which is the operand and the borrow taken away. -/
theorem sbcSubtractsWithBorrow : Obligations.SbcSubtractsWithBorrow := by
  have hrun : FormsRun sbcForms (readThen subtractFromA) := sbc_eq_readThen ▸ sbcForms_run_sbc
  refine ⟨fun _ _ => rfl, hrun.faultsWithItsRead_of_readThen, ?_⟩
  intro b w f hf s t m hm
  exact ⟨_, hrun.exec_of_readThen hf hm, rfl, subtract_r_toNat .., subtract_c .., subtract_v .., subtract_v_iff ..,
    congrArg Status.z (Status.setSum_eq ..), congrArg Status.n (Status.setSum_eq ..), rfl, rfl⟩

/-- Settles O37: the operand is read alike whatever D is, and neither the adder nor its flags look at D. -/
theorem decimalFlagDoesNotChangeAddition : Obligations.DecimalFlagDoesNotChangeAddition := by
  intro b w f hf
  rcases List.mem_append.mp hf with hadc | hsbc
  · exact (adc_eq_readThen ▸ adcForms_run_adc : FormsRun adcForms (readThen addToA)).ignoresD addToA_withD hadc
  · exact (sbc_eq_readThen ▸ sbcForms_run_sbc : FormsRun sbcForms (readThen subtractFromA)).ignoresD
      (fun d m => addToA_withD d (~~~m)) hsbc

/-- Settles O39: every form runs the one comparator with its mnemonic's register. -/
theorem comparesSetCZN : Obligations.ComparesSetCZN :=
  ⟨FormsRun.compareRule (cmp_eq_readThen ▸ cmpForms_run_cmp) (fun _ _ => rfl) fun _ _ => rfl,
    FormsRun.compareRule (cpx_eq_readThen ▸ cpxForms_run_cpx) (fun _ _ => rfl) fun _ _ => rfl,
    FormsRun.compareRule (cpy_eq_readThen ▸ cpyForms_run_cpy) (fun _ _ => rfl) fun _ _ => rfl⟩

/-- Settles O40: both forms run `bitOp`, whose flags are the statement's. -/
theorem bitCopiesBitsOfMemory : Obligations.BitCopiesBitsOfMemory := by
  have hrun : FormsRun bitForms (readThen testBits) := bitOp_eq_readThen ▸ bitForms_run_bitOp
  refine ⟨fun _ _ => rfl, hrun.faultsWithItsRead_of_readThen, ?_⟩
  intro b w f hf s t m hm
  exact hrun.exec_of_readThen hf hm

end Sys2Proof.Machine
end

section
/-!
The stack (spec/10_state.md R24; spec/44_control.md R230 to R235; spec/45_single_mode.md R257 to R260): page 1's addresses, a word
pushed and a word pulled as operations of the flat memory, and what each call, return, trap, push and pull answers; then the
statements they settle.
-/

namespace Sys2Proof.Machine

/-! ## Page 1 -/

theorem page1_toNat (sp : Byte) : (page1 sp).toNat = 256 + sp.toNat :=
  Nat.mod_eq_of_lt (by omega)

theorem stackAddr_eq_page1 (sp : Byte) : stackAddr sp = page1 sp := by
  rw [stackAddr, zext16_eq_ofNat]
  exact (BitVec.ofNat_add 256 sp.toNat).symm

theorem page1_ne {p q : Byte} (h : p ≠ q) : page1 p ≠ page1 q := by
  intro heq
  have hnat := congrArg BitVec.toNat heq
  rw [page1_toNat, page1_toNat] at hnat
  exact h (BitVec.eq_of_toNat_eq (by omega))

theorem ne_page1_of_ge {a : Addr} (ha : 512 ≤ a.toNat) (sp : Byte) : a ≠ page1 sp := by
  rintro rfl
  rw [page1_toNat] at ha
  omega

/-! ## Words on the stack of the flat memory -/

/-- Memory after the push of a word from the stack pointer `sp` (R231); `pushWord_flat_eq` ties it to the operation. -/
def Memory.pushWord (m : Memory) (sp : Byte) (w : Addr) : Memory :=
  (m.setByte (page1 sp) (hiByte w)).setByte (page1 (sp - 1)) (loByte w)

/-- The word a pull from the stack pointer `sp` takes (R232); `pullWord_flat_eq` ties it to the operation. -/
def Memory.pulledWord (m : Memory) (sp : Byte) : Addr :=
  joinBytes (m.byteAt (page1 (sp + 2))) (m.byteAt (page1 (sp + 1)))

theorem byte_sub_two (sp : Byte) : sp - 1 - 1 = sp - 2 := by bv_omega

theorem byte_add_two (sp : Byte) : sp + 1 + 1 = sp + 2 := by bv_omega

section StackBytes
variable (m : Memory) (sp : Byte) (w : Addr)

theorem Memory.byteAt_pushWord_high : (m.pushWord sp w).byteAt (page1 sp) = hiByte w :=
  (Memory.byteAt_setByte_ne _ (page1_ne (by bv_omega)) _).trans (Memory.byteAt_setByte_same ..)

theorem Memory.byteAt_pushWord_low : (m.pushWord sp w).byteAt (page1 (sp - 1)) = loByte w :=
  Memory.byteAt_setByte_same ..

theorem Memory.byteAt_pushWord_ne {a : Addr} (hhi : a ≠ page1 sp) (hlo : a ≠ page1 (sp - 1)) :
    (m.pushWord sp w).byteAt a = m.byteAt a :=
  (Memory.byteAt_setByte_ne _ hlo _).trans (Memory.byteAt_setByte_ne m hhi _)

/-- A pull takes the word that is split over the two places above the stack pointer. -/
theorem Memory.pulledWord_eq {sp' : Byte} (hhi : m.byteAt (page1 sp) = hiByte w)
    (hlo : m.byteAt (page1 (sp - 1)) = loByte w) (hsp : sp' = sp - 2) : m.pulledWord sp' = w := by
  have h2 : sp' + 2 = sp := by bv_omega
  have h1 : sp' + 1 = sp - 1 := by bv_omega
  rw [Memory.pulledWord, h2, h1, hhi, hlo, joinBytes_hiByte_loByte]

end StackBytes

/-! ## BRK's frame -/

/-- The memory that BRK's three pushes leave (R235); `exec_brk_flat` ties it to the meaning. -/
def State.breakFrame (s : State) : Memory :=
  (s.mem.pushWord s.sp (s.pc + 1)).setByte (page1 (s.sp - 2)) s.p.pushByte

section BreakFrame
variable {s : State}

theorem State.byteAt_breakFrame_ne {a : Addr} (hp : a ≠ page1 (s.sp - 2)) :
    s.breakFrame.byteAt a = (s.mem.pushWord s.sp (s.pc + 1)).byteAt a := Memory.byteAt_setByte_ne _ hp _

theorem State.byteAt_breakFrame_status : s.breakFrame.byteAt (page1 (s.sp - 2)) = s.p.pushByte :=
  Memory.byteAt_setByte_same ..

theorem State.byteAt_breakFrame_high : s.breakFrame.byteAt (page1 s.sp) = hiByte (s.pc + 1) :=
  (s.byteAt_breakFrame_ne (page1_ne (by bv_omega))).trans (Memory.byteAt_pushWord_high ..)

theorem State.byteAt_breakFrame_low : s.breakFrame.byteAt (page1 (s.sp - 1)) = loByte (s.pc + 1) :=
  (s.byteAt_breakFrame_ne (page1_ne (by bv_omega))).trans (Memory.byteAt_pushWord_low ..)

/-- The pushes do not reach the vector. -/
theorem State.byteAt_breakFrame_vector {a : Addr} (ha : 512 ≤ a.toNat) : s.breakFrame.byteAt a = s.mem.byteAt a :=
  (s.byteAt_breakFrame_ne (ne_page1_of_ge ha _)).trans
    (Memory.byteAt_pushWord_ne _ _ _ (ne_page1_of_ge ha _) (ne_page1_of_ge ha _))

end BreakFrame

/-! ## Calls, returns and the trap under the flat backend -/

section Flat
variable {s : State} (hflat : s.params.backend = .flat)
include hflat

theorem pushWord_flat_eq (w : Addr) :
    pushWord w s = .ok { s with mem := s.mem.pushWord s.sp w, sp := s.sp - 2 } := by
  rw [pushWord_flat hflat, stackAddr_eq_page1, stackAddr_eq_page1, byte_sub_two]
  rfl

theorem pullWord_flat_eq : pullWord s = .ok (s.mem.pulledWord s.sp, { s with sp := s.sp + 2 }) := by
  rw [pullWord_flat hflat, stackAddr_eq_page1, stackAddr_eq_page1, byte_add_two]
  rfl

theorem exec_jsr_flat (w : Addr) :
    exec (.jsr w) s = .next { s with mem := s.mem.pushWord s.sp (s.pc - 1), sp := s.sp - 2, pc := w } := by
  change finish (callTo w s) = _
  simp [callTo, pushWord_flat_eq hflat]

theorem exec_rts_flat :
    exec .rts s = .next { s with sp := s.sp + 2, pc := s.mem.pulledWord s.sp + 1 } := by
  change finish (returnFromCall s) = _
  simp [returnFromCall, pullWord_flat_eq hflat]

theorem exec_brk_flat : exec .brk s = .next { s with
    mem := s.breakFrame
    sp := s.sp - 3
    p := { s.p with i := true }
    pc := joinBytes (s.mem.byteAt 0xFFFF) (s.mem.byteAt 0xFFFE) } := by
  have hsp : s.sp - 2 - 1 = s.sp - 3 := by bv_omega
  have hlo : s.breakFrame.byteAt breakVector = s.mem.byteAt 0xFFFE := s.byteAt_breakFrame_vector (by decide)
  have hhi : s.breakFrame.byteAt (breakVector + 1) = s.mem.byteAt 0xFFFF := s.byteAt_breakFrame_vector (by decide)
  rw [← hlo, ← hhi, ← hsp]
  change finish (takeBreak s) = _
  simp [takeBreak, pushWord_flat_eq, push_flat, readByte_flat, hflat, stackAddr_eq_page1, State.breakFrame]

theorem exec_rti_flat : exec .rti s = .next { s with
    sp := s.sp + 3
    p := Status.ofByte (s.mem.byteAt (page1 (s.sp + 1)))
    pc := s.mem.pulledWord (s.sp + 1) } := by
  have hsp : s.sp + 1 + 2 = s.sp + 3 := by bv_omega
  rw [← hsp]
  change finish (returnFromBreak s) = _
  simp [returnFromBreak, pullWord_flat_eq, pull_flat, hflat, stackAddr_eq_page1]

end Flat

/-! ## Pushes and pulls under either backend -/

theorem push_eq (v : Byte) (s : State) :
    push v s = writeByte (page1 s.sp) v s >>= fun t => .ok { t with sp := t.sp - 1 } := by
  rw [push, stackAddr_eq_page1]

theorem pushRule_of_push {i : Instr} {v : State → Byte} (hrun : ∀ s, exec i s = finish (push (v s) s)) : PushRule i v := by
  intro s
  rw [hrun, push_eq]
  refine ⟨fun hb => ?_, fun hb => ⟨fun hw => ?_, fun hw => ?_, fun e hw hne => ?_⟩⟩
  · rw [writeByte_flat hb]
    exact ⟨_, rfl, rfl, Memory.byteAt_setByte_same .., fun c hc => Memory.byteAt_setByte_ne s.mem hc _⟩
  · rw [writeByte_oracle_expected hb hw]
    exact ⟨_, rfl, rfl, tableGet_tableSet_same ..⟩
  · rw [writeByte_oracle_undeclared hb hw, except_error_bind, finish_error]
  · rw [writeByte_oracle_mismatch hb hw hne, except_error_bind, finish_error]

/-- A pull reads as the state before it would, and moves SP. -/
theorem pull_eq (s : State) :
    pull s = (readByte (page1 (s.sp + 1)) s).map (Prod.map id fun t => { t with sp := s.sp + 1 }) := by
  rw [pull, stackAddr_eq_page1]
  exact readByte_map (φ := fun t => { t with sp := s.sp + 1 }) rfl rfl (fun _ => rfl) _

section Pulls
variable {s : State}

theorem pull_of_read_error {e : Fault} (hread : readByte (page1 (s.sp + 1)) s = .error e) : pull s = .error e := by
  rw [pull_eq, hread]
  rfl

theorem pull_of_read_ok {t : State} {v : Byte} (hread : readByte (page1 (s.sp + 1)) s = .ok (v, t)) :
    pull s = .ok (v, { s with oracle := t.oracle, sp := s.sp + 1 }) := by
  have ht : { t with sp := s.sp + 1 } = { s with oracle := t.oracle, sp := s.sp + 1 } := by
    rw [(readByte_readOnly hread).eq_oracle]
  rw [pull_eq, hread, ← ht]
  rfl

end Pulls

theorem exec_pla (s : State) : exec .pla s = finish (pullA s) := rfl

theorem exec_plp (s : State) : exec .plp s = finish (pullP s) := rfl

/-! ## The statements -/

/-- Settles O45: JSR's memory is that of one pushed word. -/
theorem jsrPushesTheReturnAddress : Obligations.JsrPushesTheReturnAddress := by
  refine ⟨fun _ => rfl, fun w s hflat => ⟨_, exec_jsr_flat hflat w, rfl, ?_⟩⟩
  exact ⟨Memory.byteAt_pushWord_high .., Memory.byteAt_pushWord_low .., fun d => Memory.byteAt_pushWord_ne s.mem s.sp _⟩

/-- Settles O46: the pulled word in numbers. -/
theorem rtsPullsAndAddsOne : Obligations.RtsPullsAndAddsOne := by
  refine ⟨rfl, fun s hflat => ?_⟩
  rw [exec_rts_flat hflat, Memory.pulledWord, joinBytes_eq_ofNat, BitVec.ofNat_add _ 1]
  rfl

/-- Settles O47: the word RTS pulls is the one JSR pushed, one less than the address after the JSR. -/
theorem rtsReturnsFromJsr : Obligations.RtsReturnsFromJsr := by
  intro w s u t hflat hexec hparams hmem hsp
  rw [exec_jsr_flat hflat] at hexec
  cases hexec
  have hword : t.mem.pulledWord t.sp = s.pc - 1 := by
    rw [hmem]
    exact Memory.pulledWord_eq _ s.sp _ (Memory.byteAt_pushWord_high ..) (Memory.byteAt_pushWord_low ..) hsp
  have hsp' : t.sp + 2 = s.sp := by rw [hsp, BitVec.sub_add_cancel]
  rw [exec_rts_flat (hparams ▸ hflat), hword, hsp', BitVec.sub_add_cancel]

/-- Settles O48: the frame's bytes are known one by one, and the vector is read after the pushes, which do not reach it. -/
theorem brkTakesTheTrap : Obligations.BrkTakesTheTrap := by
  refine ⟨rfl, fun s hflat => ⟨_, exec_brk_flat hflat, ?_, ?_⟩⟩
  · rw [joinBytes_eq_ofNat]
  · refine ⟨s.byteAt_breakFrame_high, s.byteAt_breakFrame_low, s.byteAt_breakFrame_status, fun d hhi hlo hp => ?_⟩
    exact (s.byteAt_breakFrame_ne hp).trans (Memory.byteAt_pushWord_ne _ _ _ hhi hlo)

/-- Settles O49: P is loaded from its byte, and PC is the word above it with nothing added. -/
theorem rtiLoadsPAndPC : Obligations.RtiLoadsPAndPC := by
  refine ⟨rfl, fun s hflat => ⟨_, Status.toByte_ofByte _, ?_⟩⟩
  have h3 : s.sp + 1 + 2 = s.sp + 3 := by bv_omega
  rw [exec_rti_flat hflat, Memory.pulledWord, joinBytes_eq_ofNat, byte_add_two, h3]

/-- Settles O50: RTI pulls the three bytes of BRK's frame, and loading the pushed P gives P back. -/
theorem rtiReturnsFromBrk : Obligations.RtiReturnsFromBrk := by
  intro s u t hflat hexec hparams hmem hsp
  rw [exec_brk_flat hflat] at hexec
  cases hexec
  have hsp1 : t.sp + 1 = s.sp - 2 := by rw [hsp]; bv_omega
  have hsp3 : t.sp + 3 = s.sp := by rw [hsp, BitVec.sub_add_cancel]
  have hstatus : t.mem.byteAt (page1 (t.sp + 1)) = s.p.pushByte := by
    rw [hmem, hsp1]
    exact s.byteAt_breakFrame_status
  have hword : t.mem.pulledWord (t.sp + 1) = s.pc + 1 := by
    rw [hmem]
    exact Memory.pulledWord_eq _ s.sp _ s.byteAt_breakFrame_high s.byteAt_breakFrame_low hsp1
  rw [exec_rti_flat (hparams ▸ hflat), hstatus, hword, hsp3, Status.ofByte_pushByte]

/-- Settles O52: both run `push`, whose one write has a rule for each way it can end. -/
theorem pushesWriteOneByte : Obligations.PushesWriteOneByte :=
  ⟨rfl, pushRule_of_push fun _ => rfl, pushRule_of_push fun _ => rfl⟩

/-- Settles O53: both run `pull`, which reads as the state before it would. -/
theorem pullsReadOneByte : Obligations.PullsReadOneByte := by
  refine ⟨rfl, fun s e hread => ?_, fun s t v hread => ?_⟩
  · rw [exec_pla, exec_plp, pullA, pullP, pull_of_read_error hread]
    exact ⟨rfl, rfl⟩
  · rw [exec_pla, exec_plp, pullA, pullP, pull_of_read_ok hread]
    exact ⟨rfl, _, Status.toByte_ofByte v, rfl⟩

end Sys2Proof.Machine
end

section
/-!
The oracle against the flat backend (spec/20_memory.md R70 to R80; spec/40_execution.md R120, R126): a state of the flat backend and the
same state under the oracle run the same accesses, the oracle checking each of them. One rule for a read and one for a write, then
the operations behind the mnemonics, every instruction, the fetch and the step; then the statements they settle.
-/

namespace Sys2Proof.Machine

/-! ## Lists of accesses -/

theorem checkAccesses_append (policy : ReadPolicy) (l l' : List Access) (o : Oracle) :
    checkAccesses policy (l ++ l') o = checkAccesses policy l o >>= checkAccesses policy l' := by
  induction l generalizing o with
  | nil => rfl
  | cons e l ih =>
    cases e with
    | read a =>
      simp only [List.cons_append, checkAccesses]
      cases oracleRead policy a o with
      | error f => rfl
      | ok r => exact ih r.2
    | write a v =>
      simp only [List.cons_append, checkAccesses]
      cases oracleWrite a v o with
      | error f => rfl
      | ok o' => exact ih o'

/-- Memory after the writes of a list, in order. -/
def applyWrites : List Access → Memory → Memory
  | [], m => m
  | .read _ :: l, m => applyWrites l m
  | .write a v :: l, m => applyWrites l (m.setByte a v)

theorem applyWrites_append (l l' : List Access) (m : Memory) :
    applyWrites (l ++ l') m = applyWrites l' (applyWrites l m) := by
  induction l generalizing m with
  | nil => rfl
  | cons e l ih =>
    cases e with
    | read a => exact ih m
    | write a v => exact ih (m.setByte a v)

theorem applyWrites_fetchAccesses (n : Nat) (a : Addr) (m : Memory) : applyWrites (fetchAccesses n a) m = m := by
  induction n generalizing a with
  | zero => rfl
  | succ n ih => exact ih (a + 1)

/-- The list of an instruction's accesses is read off registers, parameters other than `BACKEND`, and memory. -/
theorem accesses_withOracle (i : Instr) (s : State) (q : Params) (o : Oracle) (hx : q.izxPtrWrap = s.params.izxPtrWrap)
    (hy : q.izyPtrWrap = s.params.izyPtrWrap) : accesses i { s with params := q, oracle := o } = accesses i s := by
  cases i with
  | ldaIndX | adcIndX | sbcIndX | andIndX | oraIndX | eorIndX | cmpIndX =>
    simp only [accesses, readAccesses, flatEa, pointerReads, flatPointer, hx]
  | staIndX => simp only [accesses, storeAccesses, flatEa, pointerReads, flatPointer, hx]
  | ldaIndY | adcIndY | sbcIndY | andIndY | oraIndY | eorIndY | cmpIndY =>
    simp only [accesses, readAccesses, flatEa, pointerReads, flatPointer, hy]
  | staIndY => simp only [accesses, storeAccesses, flatEa, pointerReads, flatPointer, hy]
  | _ => rfl

/-! ## Live expectations -/

/-- Every live read expectation is of the byte that memory holds. -/
def Agrees (m : Memory) (o : Oracle) : Prop :=
  ∀ (a : Addr) v, tableGet a.toNat o.expRead = some (v, true) → v = m.byteAt a

theorem Agrees.empty (m : Memory) : Agrees m Oracle.empty := fun _ _ h => by cases h

/-- A read that answers had a live expectation, and leaves no other live. -/
theorem oracleRead_ok {policy : ReadPolicy} {a : Addr} {o o' : Oracle} {v : Byte}
    (h : oracleRead policy a o = .ok (v, o')) : tableGet a.toNat o.expRead = some (v, true) ∧
      (∀ k w, tableGet k o'.expRead = some (w, true) → tableGet k o.expRead = some (w, true)) ∧
      o'.expWrite = o.expWrite := by
  unfold oracleRead at h
  split at h
  · cases h
  · cases h
  · next w hw =>
    cases policy with
    | persistent =>
      cases h
      exact ⟨hw, fun _ _ => id, rfl⟩
    | consumeOnce =>
      cases h
      refine ⟨hw, fun k x hx => ?_, rfl⟩
      rw [tableGet_tableSet] at hx
      split at hx
      · simp at hx
      · exact hx

theorem oracleWrite_ok {a : Addr} {v : Byte} {o o' : Oracle} (h : oracleWrite a v o = .ok o') :
    tableGet a.toNat o.expWrite = some v ∧ o'.expRead = o.expRead ∧ o'.expWrite = o.expWrite := by
  unfold oracleWrite at h
  split at h
  · cases h
  · next e he =>
    split at h
    · next hev =>
      cases h
      exact ⟨hev ▸ he, rfl, rfl⟩
    · cases h

theorem Agrees.read {m : Memory} {policy : ReadPolicy} {a : Addr} {o o' : Oracle} {v : Byte} (ho : Agrees m o)
    (h : oracleRead policy a o = .ok (v, o')) : v = m.byteAt a ∧ Agrees m o' := by
  obtain ⟨hlive, hfewer, _⟩ := oracleRead_ok h
  exact ⟨ho a v hlive, fun b w hw => ho b w (hfewer b.toNat w hw)⟩

theorem Agrees.write {m : Memory} {a : Addr} {v : Byte} {o o' : Oracle} (ho : Agrees m o)
    (h : oracleWrite a v o = .ok o') : Agrees m o' := by
  obtain ⟨_, hreads, _⟩ := oracleWrite_ok h
  exact fun b w hw => ho b w (hreads ▸ hw)

theorem Agrees.check {m : Memory} {policy : ReadPolicy} {l : List Access} {o o' : Oracle} (ho : Agrees m o)
    (h : checkAccesses policy l o = .ok o') : Agrees m o' := by
  induction l generalizing o with
  | nil =>
    cases h
    exact ho
  | cons e l ih =>
    cases e with
    | read a =>
      simp only [checkAccesses] at h
      split at h
      · cases h
      · next hr => exact ih (ho.read hr).2 h
    | write a v =>
      simp only [checkAccesses] at h
      split at h
      · cases h
      · next hw => exact ih (ho.write hw) h

/-- An accepted list changes only bytes registered as required writes, to their required values. -/
theorem expWrite_of_applyWrites_ne {policy : ReadPolicy} {l : List Access} {o o' : Oracle} {m : Memory} {b : Addr}
    (h : checkAccesses policy l o = .ok o') (hne : (applyWrites l m).byteAt b ≠ m.byteAt b) :
    tableGet b.toNat o.expWrite = some ((applyWrites l m).byteAt b) := by
  induction l generalizing o m with
  | nil => exact absurd rfl hne
  | cons e l ih =>
    cases e with
    | read a =>
      simp only [checkAccesses] at h
      split at h
      · cases h
      · next hr => exact (oracleRead_ok hr).2.2 ▸ ih h hne
    | write a v =>
      simp only [checkAccesses] at h
      split at h
      · cases h
      · next hw =>
        obtain ⟨hget, _, hwrites⟩ := oracleWrite_ok hw
        by_cases hlater : (applyWrites l (m.setByte a v)).byteAt b = (m.setByte a v).byteAt b
        · have hb : b = a := by
            by_contra hba
            exact hne (hlater.trans (Memory.byteAt_setByte_ne m hba v))
          subst hb
          rw [applyWrites, hlater, Memory.byteAt_setByte_same]
          exact hget
        · exact hwrites ▸ ih h hlater

/-! ## One state under two backends -/

/-- The state `u` as the oracle's run has it: under parameters `q`, with the memory `m` and the oracle `o`. -/
def State.under (u : State) (q : Params) (m : Memory) (o : Oracle) : State :=
  { u with params := q, mem := m, oracle := o }

/-- `u` has the parameters of `q` but the flat backend, and the oracle's live expectations agree with the memory `m`. -/
structure Twin (q : Params) (m : Memory) (o : Oracle) (u : State) : Prop where
  oracle : q.backend = .oracle
  params : u.params = { q with backend := .flat }
  agrees : Agrees m o

section Twin
variable {q : Params} {m : Memory} {o : Oracle} {u : State} (h : Twin q m o u)
include h

theorem Twin.flat : u.params.backend = .flat := by rw [h.params]

theorem Twin.of_agrees {o' : Oracle} (ho : Agrees m o') : Twin q m o' u := ⟨h.oracle, h.params, ho⟩

theorem Twin.of_params {v : State} (hv : v.params = u.params) : Twin q m o v := ⟨h.oracle, hv.trans h.params, h.agrees⟩

theorem Twin.readByte_under (a : Addr) :
    readByte a (u.under q m o) = (oracleRead q.readPolicy a o).map fun r => (r.1, u.under q m r.2) := by
  cases hr : oracleRead q.readPolicy a o <;> simp [readByte, State.under, h.oracle, hr, Except.map]

theorem Twin.writeByte_under (a : Addr) (v : Byte) :
    writeByte a v (u.under q m o) = (oracleWrite a v o).map (u.under q m) := by
  cases hw : oracleWrite a v o <;> simp [writeByte, State.under, h.oracle, hw, Except.map]

end Twin

/-- The computation `x` under the oracle checks the accesses `l` and, with none violated, answers `r` of the oracle they leave. -/
def Follows {ρ : Type} (q : Params) (l : List Access) (o : Oracle) (x : Except Fault ρ) (r : Oracle → ρ) : Prop :=
  x = checkAccesses q.readPolicy l o >>= fun o' => .ok (r o')

theorem Follows.read {ρ : Type} {q : Params} {m : Memory} {o : Oracle} {u : State} {l : List Access} {r : Oracle → ρ}
    (h : Twin q m o u) {a : Addr} {k : Byte × State → Except Fault ρ}
    (hk : ∀ o', Twin q m o' u → Follows q l o' (k (m.byteAt a, u.under q m o')) r) :
    Follows q (.read a :: l) o (readByte a (u.under q m o) >>= k) r := by
  unfold Follows checkAccesses
  rw [h.readByte_under]
  cases hr : oracleRead q.readPolicy a o with
  | error f => rfl
  | ok p =>
    obtain ⟨v, o'⟩ := p
    obtain ⟨rfl, ho'⟩ := h.agrees.read hr
    exact hk o' (h.of_agrees ho')

theorem Follows.write {ρ : Type} {q : Params} {m : Memory} {o : Oracle} {u : State} {l : List Access} {r : Oracle → ρ}
    (h : Twin q m o u) {a : Addr} {v : Byte} {k : State → Except Fault ρ}
    (hk : ∀ o', Twin q m o' u → Follows q l o' (k (u.under q m o')) r) :
    Follows q (.write a v :: l) o (writeByte a v (u.under q m o) >>= k) r := by
  unfold Follows checkAccesses
  rw [h.writeByte_under]
  cases hw : oracleWrite a v o with
  | error f => rfl
  | ok o' => exact hk o' (h.of_agrees (h.agrees.write hw))

/-- `y`, from a flat state with the memory `m₁`, completes with the writes of `l` made; `x`, the same under the oracle, checks `l` and
then has the same registers. -/
def Mirrors (q : Params) (m : Memory) (l : List Access) (o : Oracle) (m₁ : Memory) (x y : Except Fault State) : Prop :=
  ∃ v, y = .ok v ∧ v.mem = applyWrites l m₁ ∧ Follows q l o x (v.under q m)

theorem Mirrors.done {q : Params} {m : Memory} {o : Oracle} (u : State) :
    Mirrors q m [] o u.mem (.ok (u.under q m o)) (.ok u) := ⟨u, rfl, rfl, rfl⟩

section Accesses
variable {q : Params} {m : Memory} {o : Oracle} {u : State} (h : Twin q m o u) {l : List Access} {a : Addr}
include h

theorem Mirrors.read (ha : u.mem.byteAt a = m.byteAt a) {k : Byte × State → Except Fault State}
    (hk : ∀ o', Twin q m o' u →
      Mirrors q m l o' u.mem (k (u.mem.byteAt a, u.under q m o')) (k (u.mem.byteAt a, u))) :
    Mirrors q m (.read a :: l) o u.mem (readByte a (u.under q m o) >>= k) (readByte a u >>= k) := by
  obtain ⟨v, hy, hmem, _⟩ := hk o h
  refine ⟨v, by rw [readByte_flat h.flat, except_ok_bind, hy], hmem, .read h fun o' h' => ?_⟩
  obtain ⟨w, hw, _, hx⟩ := hk o' h'
  rw [hy] at hw
  cases hw
  exact ha ▸ hx

theorem Mirrors.write {v : Byte} {k : State → Except Fault State}
    (hk : ∀ o', Twin q m o' u →
      Mirrors q m l o' (u.mem.setByte a v) (k (u.under q m o')) (k { u with mem := u.mem.setByte a v })) :
    Mirrors q m (.write a v :: l) o u.mem (writeByte a v (u.under q m o) >>= k) (writeByte a v u >>= k) := by
  obtain ⟨w, hy, hmem, _⟩ := hk o h
  refine ⟨w, by rw [writeByte_flat h.flat, except_ok_bind, hy], hmem, .write h fun o' h' => ?_⟩
  obtain ⟨w', hw, _, hx⟩ := hk o' h'
  rw [hy] at hw
  cases hw
  exact hx

end Accesses

/-! ## The operations behind the mnemonics -/

/-- A change of registers alone, which sees registers alone. -/
def RegistersOnly (φ : State → State) : Prop :=
  ∀ u q m o, φ (u.under q m o) = (φ u).under q m o ∧ (φ u).mem = u.mem

theorem Mirrors.registers {φ : State → State} (hφ : RegistersOnly φ) (q : Params) (m : Memory) (o : Oracle) (u : State) :
    Mirrors q m [] o u.mem (.ok (φ (u.under q m o))) (.ok (φ u)) := by
  obtain ⟨hunder, hmem⟩ := hφ u q m o
  rw [hunder, ← hmem]
  exact .done (φ u)

section Operations
variable {q : Params} {o : Oracle} {u : State} (h : Twin q u.mem o u) {l : List Access} {mode : LocMode} {a : Addr}
include h

theorem Mirrors.resolve (hea : flatEa mode u = some a) {k : Loc × State → Except Fault State}
    (hk : ∀ o', Twin q u.mem o' u →
      Mirrors q u.mem l o' u.mem (k (.mem a, u.under q u.mem o')) (k (.mem a, u))) :
    Mirrors q u.mem (pointerReads mode u ++ l) o u.mem (Machine.resolve mode (u.under q u.mem o) >>= k)
      (Machine.resolve mode u >>= k) := by
  have hx : q.izxPtrWrap = u.params.izxPtrWrap := by rw [h.params]
  have hy : q.izyPtrWrap = u.params.izyPtrWrap := by rw [h.params]
  cases mode with
  | accumulator => cases hea
  | indirectX b =>
    cases hea
    simp only [Machine.resolve, readPointer, bind_assoc, except_ok_bind, State.under, hx]
    exact .read h rfl fun o₁ h₁ => .read h₁ rfl hk
  | indirectY b =>
    cases hea
    simp only [Machine.resolve, readPointer, bind_assoc, except_ok_bind, State.under, hy]
    exact .read h rfl fun o₁ h₁ => .read h₁ rfl hk
  | _ =>
    cases hea
    exact hk o h

theorem mirrors_readThen {effect : Byte → State → State} (heffect : ∀ v, RegistersOnly (effect v))
    (hea : flatEa mode u = some a) : Mirrors q u.mem (readAccesses mode u) o u.mem
      (readThen effect (.loc mode) (u.under q u.mem o)) (readThen effect (.loc mode) u) := by
  simp only [readThen, readSource, bind_assoc, readAccesses, hea]
  exact .resolve h hea fun o₁ h₁ => .read h₁ rfl fun o₂ _ => .registers (heffect _) q u.mem o₂ u

theorem mirrors_store (v : Byte) (hea : flatEa mode u = some a) :
    Mirrors q u.mem (storeAccesses mode v u) o u.mem (store mode v (u.under q u.mem o)) (store mode v u) := by
  simp only [store, storeAccesses, hea]
  refine .resolve h hea fun o₁ h₁ => ?_
  simp only [writeLoc]
  rw [← bind_pure (writeByte a v (u.under q u.mem o₁)), ← bind_pure (writeByte a v u)]
  exact .write h₁ fun o₂ _ => .done { u with mem := u.mem.setByte a v }

theorem mirrors_updateOperand (f : Byte → Bool → Shifted) {setP : Shifted → Status → Status}
    (hea : flatEa mode u = some a) : Mirrors q u.mem (updateAccesses (fun v => (f v u.p.c).r) mode u) o u.mem
      (updateOperand f setP mode (u.under q u.mem o)) (updateOperand f setP mode u) := by
  simp only [updateOperand, updateAccesses, hea]
  refine .resolve h hea fun o₁ h₁ => .read h₁ rfl fun o₂ h₂ => .write h₂ fun o₃ _ => ?_
  exact .done { u with
    mem := u.mem.setByte a (f (u.mem.byteAt a) u.p.c).r
    p := setP (f (u.mem.byteAt a) u.p.c) u.p }

theorem mirrors_jumpIndirect (p : Addr) : Mirrors q u.mem [.read p, .read (indirectHigh p)] o u.mem
    (jumpIndirect p (u.under q u.mem o)) (jumpIndirect p u) := by
  simp only [jumpIndirect, indirectTarget, bind_assoc, except_ok_bind]
  exact .read h rfl fun o₁ h₁ => .read h₁ rfl fun o₂ _ => .done { u with pc := _ }

theorem mirrors_push (v : Byte) : Mirrors q u.mem [.write (stackAddr u.sp) v] o u.mem
    (push v (u.under q u.mem o)) (push v u) :=
  .write h fun _ _ => .done { u with mem := u.mem.setByte (stackAddr u.sp) v, sp := u.sp - 1 }

theorem mirrors_callTo (w : Addr) : Mirrors q u.mem (pushWordAccesses (u.pc - 1) u.sp) o u.mem
    (callTo w (u.under q u.mem o)) (callTo w u) := by
  simp only [callTo, pushWord, push, bind_assoc, except_ok_bind]
  refine .write h fun o₁ h₁ => ?_
  refine .write (u := { u with mem := _, sp := u.sp - 1 }) (h₁.of_params rfl) fun o₂ _ => ?_
  exact .done { u with mem := _, sp := u.sp - 1 - 1, pc := w }

/-- A pull is a read from the state with SP moved, whose memory is the same. -/
theorem Mirrors.pull {k : Byte × State → Except Fault State}
    (hk : ∀ o', Twin q u.mem o' { u with sp := u.sp + 1 } → Mirrors q u.mem l o' u.mem
      (k (u.mem.byteAt (stackAddr (u.sp + 1)), State.under { u with sp := u.sp + 1 } q u.mem o'))
      (k (u.mem.byteAt (stackAddr (u.sp + 1)), { u with sp := u.sp + 1 }))) :
    Mirrors q u.mem (.read (stackAddr (u.sp + 1)) :: l) o u.mem (Machine.pull (u.under q u.mem o) >>= k)
      (Machine.pull u >>= k) :=
  .read (u := { u with sp := u.sp + 1 }) (h.of_params rfl) rfl hk

theorem mirrors_pullA : Mirrors q u.mem [.read (stackAddr (u.sp + 1))] o u.mem (pullA (u.under q u.mem o)) (pullA u) :=
  .pull h fun _ _ => .done { u with sp := u.sp + 1, a := _, p := _ }

theorem mirrors_pullP : Mirrors q u.mem [.read (stackAddr (u.sp + 1))] o u.mem (pullP (u.under q u.mem o)) (pullP u) :=
  .pull h fun _ _ => .done { u with sp := u.sp + 1, p := _ }

theorem Mirrors.pullWord {k : Addr × State → Except Fault State}
    (hk : ∀ o' w, Mirrors q u.mem l o' u.mem (k (w, State.under { u with sp := u.sp + 1 + 1 } q u.mem o'))
      (k (w, { u with sp := u.sp + 1 + 1 }))) :
    Mirrors q u.mem (.read (stackAddr (u.sp + 1)) :: .read (stackAddr (u.sp + 1 + 1)) :: l) o u.mem
      (Machine.pullWord (u.under q u.mem o) >>= k) (Machine.pullWord u >>= k) := by
  simp only [Machine.pullWord, bind_assoc, except_ok_bind]
  exact .pull h fun o₁ h₁ => .pull (u := { u with sp := u.sp + 1 }) h₁ fun o₂ _ => hk o₂ _

theorem mirrors_returnFromCall : Mirrors q u.mem [.read (stackAddr (u.sp + 1)), .read (stackAddr (u.sp + 1 + 1))] o u.mem
    (returnFromCall (u.under q u.mem o)) (returnFromCall u) :=
  .pullWord h fun _ w => .done { u with sp := u.sp + 1 + 1, pc := w + 1 }

theorem mirrors_returnFromBreak : Mirrors q u.mem
    [.read (stackAddr (u.sp + 1)), .read (stackAddr (u.sp + 1 + 1)), .read (stackAddr (u.sp + 1 + 1 + 1))] o u.mem
    (returnFromBreak (u.under q u.mem o)) (returnFromBreak u) := by
  refine .pull h fun o₁ h₁ => ?_
  refine .pullWord (u := { u with sp := u.sp + 1, p := Status.ofByte (u.mem.byteAt (stackAddr (u.sp + 1))) })
    (h₁.of_params rfl) fun o₂ w => ?_
  exact .done { u with sp := u.sp + 1 + 1 + 1, p := _, pc := w }

/-- The vector is read after the pushes, which do not reach it. -/
theorem mirrors_takeBreak : Mirrors q u.mem (accesses .brk u) o u.mem (takeBreak (u.under q u.mem o)) (takeBreak u) := by
  have hpush : ∀ a : Addr, 512 ≤ a.toNat → ∀ (m : Memory) (sp v : Byte),
      (m.setByte (stackAddr sp) v).byteAt a = m.byteAt a := fun a ha m sp v =>
    Memory.byteAt_setByte_ne m (stackAddr_eq_page1 sp ▸ ne_page1_of_ge ha sp) v
  have hvec : ∀ a : Addr, 512 ≤ a.toNat → ∀ sp sp' sp'' v v' v'',
      (((u.mem.setByte (stackAddr sp) v).setByte (stackAddr sp') v').setByte (stackAddr sp'') v'').byteAt a =
        u.mem.byteAt a := fun a ha _ _ _ _ _ _ =>
    (hpush a ha _ _ _).trans ((hpush a ha _ _ _).trans (hpush a ha _ _ _))
  simp only [takeBreak, pushWord, push, bind_assoc, except_ok_bind]
  refine .write h fun o₁ h₁ => ?_
  refine .write (u := { u with mem := _, sp := u.sp - 1 }) (h₁.of_params rfl) fun o₂ h₂ => ?_
  refine .write (u := { u with mem := _, sp := u.sp - 1 - 1 }) (h₂.of_params rfl) fun o₃ h₃ => ?_
  refine .read (u := { u with mem := _, sp := u.sp - 1 - 1 - 1, p := { u.p with i := true } }) (h₃.of_params rfl)
    (hvec breakVector (by decide) _ _ _ _ _ _) fun o₄ h₄ => ?_
  refine .read h₄ (hvec (breakVector + 1) (by decide) _ _ _ _ _ _) fun o₅ _ => ?_
  exact .done { u with mem := _, sp := u.sp - 1 - 1 - 1, p := { u.p with i := true }, pc := _ }

end Operations

end Sys2Proof.Machine
end

section
/-!
Instructions and steps under the two backends (spec/40_execution.md R120, R126): the access list of every instruction, the fetch, and
the step; then the statements they settle, and the totality of the flat step, which follows.
-/

namespace Sys2Proof.Machine

/-! ## Instructions -/

/-- From the flat state `u` the instruction completes with the writes of its access list made, and from `u` under the oracle it checks
that list and then has the same registers. -/
def ExecMirrors (q : Params) (o : Oracle) (u : State) (i : Instr) : Prop :=
  ∃ v, exec i u = .next v ∧ v.mem = applyWrites (accesses i u) u.mem ∧
    exec i (u.under q u.mem o) =
      finish (checkAccesses q.readPolicy (accesses i u) o >>= fun o' => .ok (v.under q u.mem o'))

/-- An operation that reads its operand once and then changes registers alone. -/
def ReadsThenSets (op : Source → State → Except Fault State) : Prop :=
  ∃ effect, op = readThen effect ∧ ∀ v, RegistersOnly (effect v)

theorem lda_readsThenSets : ReadsThenSets lda :=
  ⟨fun v s => { s with a := v, p := s.p.setZN v }, rfl, fun _ _ _ _ _ => ⟨rfl, rfl⟩⟩

theorem ldx_readsThenSets : ReadsThenSets ldx :=
  ⟨fun v s => { s with x := v, p := s.p.setZN v }, rfl, fun _ _ _ _ _ => ⟨rfl, rfl⟩⟩

theorem ldy_readsThenSets : ReadsThenSets ldy :=
  ⟨fun v s => { s with y := v, p := s.p.setZN v }, rfl, fun _ _ _ _ _ => ⟨rfl, rfl⟩⟩

theorem adc_readsThenSets : ReadsThenSets adc := ⟨addToA, rfl, fun _ _ _ _ _ => ⟨rfl, rfl⟩⟩

theorem sbc_readsThenSets : ReadsThenSets sbc := ⟨subtractFromA, rfl, fun _ _ _ _ _ => ⟨rfl, rfl⟩⟩

theorem logic_readsThenSets (g : Byte → Byte → Byte) : ReadsThenSets (logic g) :=
  ⟨combineWithA g, rfl, fun _ _ _ _ _ => ⟨rfl, rfl⟩⟩

theorem cmp_readsThenSets : ReadsThenSets cmp := ⟨compareWith State.a, rfl, fun _ _ _ _ _ => ⟨rfl, rfl⟩⟩

theorem cpx_readsThenSets : ReadsThenSets cpx := ⟨compareWith State.x, rfl, fun _ _ _ _ _ => ⟨rfl, rfl⟩⟩

theorem cpy_readsThenSets : ReadsThenSets cpy := ⟨compareWith State.y, rfl, fun _ _ _ _ _ => ⟨rfl, rfl⟩⟩

theorem bitOp_readsThenSets : ReadsThenSets bitOp := ⟨testBits, rfl, fun _ _ _ _ _ => ⟨rfl, rfl⟩⟩

section Instructions
variable {q : Params} {o : Oracle} {u : State} {i : Instr} {mode : LocMode} {a : Addr}

theorem Mirrors.execMirrors {op : State → Except Fault State}
    (hm : Mirrors q u.mem (accesses i u) o u.mem (op (u.under q u.mem o)) (op u))
    (hrun : ∀ s, exec i s = finish (op s)) : ExecMirrors q o u i := by
  obtain ⟨v, hv, hmem, hx⟩ := hm
  exact ⟨v, by rw [hrun, hv, finish_ok], hmem, by rw [hrun, hx]⟩

theorem execMirrors_registers {φ : State → State} (hrun : ∀ s, exec i s = .next (φ s)) (hφ : RegistersOnly φ)
    (hacc : accesses i u = []) : ExecMirrors q o u i :=
  Mirrors.execMirrors (op := fun s => .ok (φ s)) (hacc ▸ .registers hφ q u.mem o u) hrun

theorem ReadsThenSets.execMirrors_immediate {op : Source → State → Except Fault State} (hop : ReadsThenSets op) {v : Byte}
    (hrun : ∀ s, exec i s = finish (op (.immediate v) s)) (hacc : accesses i u = []) : ExecMirrors q o u i := by
  obtain ⟨effect, rfl, heffect⟩ := hop
  exact execMirrors_registers hrun (heffect v) hacc

theorem execMirrors_branch {cond : Status → Bool} {off : Byte}
    (hrun : ∀ s, exec i s = .next (branch (cond s.p) off s)) (hacc : accesses i u = []) : ExecMirrors q o u i :=
  execMirrors_registers (fun s => (hrun s).trans (congrArg _ (branch_eq ..))) (fun _ _ _ _ => ⟨rfl, rfl⟩) hacc

variable (h : Twin q u.mem o u)
include h

theorem ReadsThenSets.execMirrors {op : Source → State → Except Fault State} (hop : ReadsThenSets op)
    (hrun : ∀ s, exec i s = finish (op (.loc mode) s)) (hea : flatEa mode u = some a)
    (hacc : accesses i u = readAccesses mode u) : ExecMirrors q o u i := by
  obtain ⟨effect, rfl, heffect⟩ := hop
  exact Mirrors.execMirrors (hacc ▸ mirrors_readThen h heffect hea) hrun

theorem execMirrors_store {reg : State → Byte} (hreg : reg (u.under q u.mem o) = reg u)
    (hrun : ∀ s, exec i s = finish (store mode (reg s) s)) (hea : flatEa mode u = some a)
    (hacc : accesses i u = storeAccesses mode (reg u) u) : ExecMirrors q o u i := by
  refine Mirrors.execMirrors (op := fun s => store mode (reg s) s) ?_ hrun
  rw [hacc, hreg]
  exact mirrors_store h (reg u) hea

theorem execMirrors_shift {f : Byte → Bool → Shifted} (hrun : ∀ s, exec i s = finish (shift f mode s))
    (hea : flatEa mode u = some a) (hacc : accesses i u = updateAccesses (fun v => (f v u.p.c).r) mode u) :
    ExecMirrors q o u i :=
  Mirrors.execMirrors (shift_eq_updateOperand f ▸ hacc ▸ mirrors_updateOperand h f hea) hrun

theorem execMirrors_bump {g : Byte → Byte} (hrun : ∀ s, exec i s = finish (bump g mode s))
    (hea : flatEa mode u = some a) (hacc : accesses i u = updateAccesses g mode u) : ExecMirrors q o u i :=
  Mirrors.execMirrors (bump_eq_updateOperand g ▸ hacc ▸ mirrors_updateOperand h _ hea) hrun

/-- Every instruction but the unimplemented one. -/
theorem exec_mirrors (hi : ∀ op, i ≠ .unimplemented op) : ExecMirrors q o u i := by
  cases i with
  | ldaImm => exact lda_readsThenSets.execMirrors_immediate (fun _ => rfl) rfl
  | ldxImm => exact ldx_readsThenSets.execMirrors_immediate (fun _ => rfl) rfl
  | ldyImm => exact ldy_readsThenSets.execMirrors_immediate (fun _ => rfl) rfl
  | adcImm => exact adc_readsThenSets.execMirrors_immediate (fun _ => rfl) rfl
  | sbcImm => exact sbc_readsThenSets.execMirrors_immediate (fun _ => rfl) rfl
  | andImm | oraImm | eorImm => exact (logic_readsThenSets _).execMirrors_immediate (fun _ => rfl) rfl
  | cmpImm => exact cmp_readsThenSets.execMirrors_immediate (fun _ => rfl) rfl
  | cpxImm => exact cpx_readsThenSets.execMirrors_immediate (fun _ => rfl) rfl
  | cpyImm => exact cpy_readsThenSets.execMirrors_immediate (fun _ => rfl) rfl
  | ldaZp | ldaZpX | ldaAbs | ldaAbsX | ldaAbsY | ldaIndX | ldaIndY =>
    exact lda_readsThenSets.execMirrors h (fun _ => rfl) rfl rfl
  | ldxZp | ldxZpY | ldxAbs | ldxAbsY => exact ldx_readsThenSets.execMirrors h (fun _ => rfl) rfl rfl
  | ldyZp | ldyZpX | ldyAbs | ldyAbsX => exact ldy_readsThenSets.execMirrors h (fun _ => rfl) rfl rfl
  | adcZp | adcZpX | adcAbs | adcAbsX | adcAbsY | adcIndX | adcIndY =>
    exact adc_readsThenSets.execMirrors h (fun _ => rfl) rfl rfl
  | sbcZp | sbcZpX | sbcAbs | sbcAbsX | sbcAbsY | sbcIndX | sbcIndY =>
    exact sbc_readsThenSets.execMirrors h (fun _ => rfl) rfl rfl
  | andZp | andZpX | andAbs | andAbsX | andAbsY | andIndX | andIndY | oraZp | oraZpX | oraAbs | oraAbsX
  | oraAbsY | oraIndX | oraIndY | eorZp | eorZpX | eorAbs | eorAbsX | eorAbsY | eorIndX | eorIndY =>
    exact (logic_readsThenSets _).execMirrors h (fun _ => rfl) rfl rfl
  | cmpZp | cmpZpX | cmpAbs | cmpAbsX | cmpAbsY | cmpIndX | cmpIndY =>
    exact cmp_readsThenSets.execMirrors h (fun _ => rfl) rfl rfl
  | cpxZp | cpxAbs => exact cpx_readsThenSets.execMirrors h (fun _ => rfl) rfl rfl
  | cpyZp | cpyAbs => exact cpy_readsThenSets.execMirrors h (fun _ => rfl) rfl rfl
  | bitZp | bitAbs => exact bitOp_readsThenSets.execMirrors h (fun _ => rfl) rfl rfl
  | staZp | staZpX | staAbs | staAbsX | staAbsY | staIndX | staIndY =>
    exact execMirrors_store (reg := State.a) h rfl (fun _ => rfl) rfl rfl
  | stxZp | stxZpY | stxAbs => exact execMirrors_store (reg := State.x) h rfl (fun _ => rfl) rfl rfl
  | styZp | styZpX | styAbs => exact execMirrors_store (reg := State.y) h rfl (fun _ => rfl) rfl rfl
  | aslZp | aslZpX | aslAbs | aslAbsX | lsrZp | lsrZpX | lsrAbs | lsrAbsX | rolZp | rolZpX | rolAbs | rolAbsX
  | rorZp | rorZpX | rorAbs | rorAbsX => exact execMirrors_shift h (fun _ => rfl) rfl rfl
  | incZp | incZpX | incAbs | incAbsX | decZp | decZpX | decAbs | decAbsX =>
    exact execMirrors_bump h (fun _ => rfl) rfl rfl
  | bcc => exact execMirrors_branch (cond := fun p => !p.c) (fun _ => rfl) rfl
  | bcs => exact execMirrors_branch (cond := fun p => p.c) (fun _ => rfl) rfl
  | beq => exact execMirrors_branch (cond := fun p => p.z) (fun _ => rfl) rfl
  | bne => exact execMirrors_branch (cond := fun p => !p.z) (fun _ => rfl) rfl
  | bmi => exact execMirrors_branch (cond := fun p => p.n) (fun _ => rfl) rfl
  | bpl => exact execMirrors_branch (cond := fun p => !p.n) (fun _ => rfl) rfl
  | bvc => exact execMirrors_branch (cond := fun p => !p.v) (fun _ => rfl) rfl
  | bvs => exact execMirrors_branch (cond := fun p => p.v) (fun _ => rfl) rfl
  | jmpInd p => exact (mirrors_jumpIndirect h p).execMirrors fun _ => rfl
  | jsr w => exact (mirrors_callTo h w).execMirrors fun _ => rfl
  | rts => exact (mirrors_returnFromCall h).execMirrors fun _ => rfl
  | rti => exact (mirrors_returnFromBreak h).execMirrors fun _ => rfl
  | brk => exact (mirrors_takeBreak h).execMirrors fun _ => rfl
  | pha => exact Mirrors.execMirrors (op := fun s => push s.a s) (mirrors_push h u.a) fun _ => rfl
  | php => exact Mirrors.execMirrors (op := fun s => push s.p.pushByte s) (mirrors_push h u.p.pushByte) fun _ => rfl
  | pla => exact (mirrors_pullA h).execMirrors fun _ => rfl
  | plp => exact (mirrors_pullP h).execMirrors fun _ => rfl
  | unimplemented op => exact absurd rfl (hi op)
  | aslA | lsrA | rolA | rorA | jmpAbs | tax | tay | txa | tya | tsx | txs | clc | sec | cli | sei | cld | sed | clv
  | inx | iny | dex | dey | nop => exact execMirrors_registers (fun _ => rfl) (fun _ _ _ _ => ⟨rfl, rfl⟩) rfl

end Instructions

/-! ## The fetch -/

/-- The flat fetch of an implemented byte: a well-formed instruction of that opcode, PC past its bytes. -/
theorem fetchInstr_flat_implemented {s : State} (hflat : s.params.backend = .flat)
    (himpl : s.mem.byteAt s.pc ∈ s.params.implemented) :
    ∃ i, i.wf = true ∧ instrOpcode i = s.mem.byteAt s.pc ∧
      fetchInstr s = .ok (i, { s with pc := s.pc + BitVec.ofNat 16 (instrLength i) }) := by
  cases hform : decodeOpcode (s.mem.byteAt s.pc) with
  | op0 i =>
    obtain ⟨henc, hwf⟩ := encode_of_op0 hform
    exact ⟨i, hwf, by rw [instrOpcode, henc], by rw [fetchInstr_flat_of_op0 hflat himpl hform, instrLength, henc]; rfl⟩
  | op1 k =>
    obtain ⟨henc, hwf⟩ := encode_of_op1 hform (s.mem.byteAt (s.pc + 1))
    exact ⟨_, hwf, by rw [instrOpcode, henc], by rw [fetchInstr_flat_of_op1 hflat himpl hform, instrLength, henc]; rfl⟩
  | op2 k =>
    obtain ⟨henc, hwf⟩ := encode_of_op2 hform (joinBytes (s.mem.byteAt (s.pc + 2)) (s.mem.byteAt (s.pc + 1)))
    exact ⟨_, hwf, by rw [instrOpcode, henc], by rw [fetchInstr_flat_of_op2 hflat himpl hform, instrLength, henc]; rfl⟩

section Fetch
variable {q : Params} {o : Oracle} {u : State} (h : Twin q u.mem o u)
include h

/-- Under the oracle the fetch of an implemented byte checks one read for each byte of the instruction. -/
theorem fetchInstr_under_implemented (himpl : u.mem.byteAt u.pc ∈ q.implemented) {i : Instr} {t : State}
    (hfetch : fetchInstr u = .ok (i, t)) :
    Follows q (fetchAccesses (instrLength i) u.pc) o (fetchInstr (u.under q u.mem o)) fun o' => (i, t.under q u.mem o') := by
  have himpl' : u.mem.byteAt u.pc ∈ u.params.implemented := by rwa [h.params]
  have hcons : q.implemented.contains (u.mem.byteAt u.pc) = true := by simpa using himpl
  simp only [fetchInstr, fetch16, fetch8, bind_assoc, except_ok_bind]
  cases hform : decodeOpcode (u.mem.byteAt u.pc) with
  | op0 j =>
    rw [fetchInstr_flat_of_op0 h.flat himpl' hform] at hfetch
    cases hfetch
    rw [instrLength, (encode_of_op0 hform).1]
    refine .read h fun o₁ h₁ => ?_
    simp only [State.under, hcons, hform, if_true]
    rfl
  | op1 k =>
    rw [fetchInstr_flat_of_op1 h.flat himpl' hform] at hfetch
    cases hfetch
    rw [instrLength, (encode_of_op1 hform _).1]
    refine .read h fun o₁ h₁ => ?_
    simp only [State.under, hcons, hform, if_true]
    refine .read (u := { u with pc := u.pc + 1 }) (h₁.of_params rfl) fun o₂ h₂ => ?_
    simp only [State.under, BitVec.add_assoc]
    rfl
  | op2 k =>
    rw [fetchInstr_flat_of_op2 h.flat himpl' hform] at hfetch
    cases hfetch
    rw [instrLength, (encode_of_op2 hform _).1]
    refine .read h fun o₁ h₁ => ?_
    simp only [State.under, hcons, hform, if_true]
    refine .read (u := { u with pc := u.pc + 1 }) (h₁.of_params rfl) fun o₂ h₂ => ?_
    refine .read (u := { u with pc := u.pc + 1 + 1 }) (h₂.of_params rfl) fun o₃ h₃ => ?_
    simp only [State.under, BitVec.add_assoc]
    rfl

/-- Under the oracle the fetch of any other byte checks one read. -/
theorem fetchInstr_under_not_implemented (himpl : u.mem.byteAt u.pc ∉ q.implemented) :
    Follows q [.read u.pc] o (fetchInstr (u.under q u.mem o)) fun o' =>
      (.unimplemented (u.mem.byteAt u.pc), State.under { u with pc := u.pc + 1 } q u.mem o') := by
  have hcons : q.implemented.contains (u.mem.byteAt u.pc) = false := by simpa using himpl
  simp only [fetchInstr, fetch16, fetch8, bind_assoc, except_ok_bind]
  refine .read h fun o₁ h₁ => ?_
  simp only [State.under, hcons]
  rfl

/-- The two fetches, of whichever byte. -/
theorem fetchInstr_mirrors : ∃ i t, t = { u with pc := u.pc + BitVec.ofNat 16 (instrLength i) } ∧
    fetchInstr u = .ok (i, t) ∧
    Follows q (fetchAccesses (instrLength i) u.pc) o (fetchInstr (u.under q u.mem o)) fun o' => (i, t.under q u.mem o') := by
  by_cases himpl : u.mem.byteAt u.pc ∈ q.implemented
  · obtain ⟨i, _, _, hfetch⟩ := fetchInstr_flat_implemented h.flat (by rwa [h.params])
    exact ⟨i, _, rfl, hfetch, fetchInstr_under_implemented h himpl hfetch⟩
  · exact ⟨_, _, rfl, fetchInstr_flat_of_not_implemented h.flat (by rwa [h.params]),
      fetchInstr_under_not_implemented h himpl⟩

end Fetch

/-! ## The step -/

theorem endStep_under {q : Params} (hq : q.backend = .oracle) (m : Memory) (v : State) (o : Oracle) :
    endStep (.next (v.under q m o)) = match missingWrite q.requireWrites o with
      | some (a, w) => .fault (.writeMissing a w)
      | none => .next (v.under q m Oracle.empty) := by
  simp only [endStep, endInstruction, State.under, hq]
  cases missingWrite q.requireWrites o <;> rfl

/-- The two steps of an instruction other than the unimplemented one. -/
theorem step_mirrors {q : Params} {o : Oracle} {u t : State} {i : Instr} (h : Twin q u.mem o u) (hrun : u.run = .running)
    (hfetch : fetchInstr u = .ok (i, t)) (hi : ∀ op, i ≠ .unimplemented op) :
    ∃ v, step u = .next v ∧ v.mem = applyWrites (stepAccesses i u) u.mem ∧
      step (u.under q u.mem o) =
        endStep (finish (checkAccesses q.readPolicy (stepAccesses i u) o >>= fun o' => .ok (v.under q u.mem o'))) := by
  obtain ⟨j, t', ht, hfetch', hunder⟩ := fetchInstr_mirrors h
  obtain ⟨rfl, rfl⟩ : j = i ∧ t' = t := by simpa [hfetch] using hfetch'.symm
  have hparams : t'.params = u.params := by rw [ht]
  have hmem : t'.mem = u.mem := by rw [ht]
  have hexec : ∀ o', Agrees u.mem o' → ExecMirrors q o' t' j := fun o' ho' =>
    exec_mirrors (hmem ▸ (h.of_agrees ho').of_params hparams) hi
  obtain ⟨v, hv, hvmem, _⟩ := hexec o h.agrees
  refine ⟨v, (step_flat_of_fetch h.flat hrun hfetch).trans hv, ?_, ?_⟩
  · rw [stepAccesses, applyWrites_append, applyWrites_fetchAccesses, ← ht, hvmem, hmem]
  · rw [stepAccesses, ← ht, checkAccesses_append]
    have hrun' : (u.under q u.mem o).run = .running := hrun
    unfold step
    rw [hrun', hunder]
    cases hcheck : checkAccesses q.readPolicy (fetchAccesses (instrLength j) u.pc) o with
    | error f => rfl
    | ok o₁ =>
      obtain ⟨v', hv', _, hx⟩ := hexec o₁ (h.agrees.check hcheck)
      rw [hv] at hv'
      cases hv'
      rw [hmem] at hx
      exact congrArg endStep hx

/-! ## A state under the oracle and the flat one with its registers -/

/-- The state with the flat backend installed in the oracle's place. -/
def State.withFlat (s : State) : State := { s with params := { s.params with backend := .flat } }

section WithFlat
variable {s : State} (horacle : s.params.backend = .oracle) (hagree : Agrees s.mem s.oracle)

theorem State.withFlat_under (s : State) : s.withFlat.under s.params s.mem s.oracle = s := rfl

include horacle hagree in
theorem twin_withFlat : Twin s.params s.withFlat.mem s.oracle s.withFlat := ⟨horacle, rfl, hagree⟩

theorem accesses_withFlat (i : Instr) (s : State) : accesses i s.withFlat = accesses i s :=
  accesses_withOracle i s _ s.oracle rfl rfl

theorem stepAccesses_withFlat (i : Instr) (s : State) : stepAccesses i s.withFlat = stepAccesses i s :=
  congrArg (_ ++ ·) (accesses_withFlat i { s with pc := _ })

end WithFlat

/-! ## The flat backend completes -/

theorem exec_flat_next {s : State} (hflat : s.params.backend = .flat) {i : Instr} (hi : ∀ op, i ≠ .unimplemented op) :
    ∃ t, exec i s = .next t := by
  have h : Twin { s.params with backend := .oracle } s.mem Oracle.empty s :=
    ⟨rfl, by rw [← hflat], Agrees.empty s.mem⟩
  obtain ⟨t, ht, _⟩ := exec_mirrors h hi
  exact ⟨t, ht⟩

section FlatStep
variable {s : State} (hrun : s.run = .running) (hflat : s.params.backend = .flat)
include hrun hflat

theorem step_flat_next (himpl : s.mem.byteAt s.pc ∈ s.params.implemented) (hdoc : s.mem.byteAt s.pc ∈ documentedOpcodes) :
    ∃ t, step s = .next t := by
  obtain ⟨i, hwf, hop, hfetch⟩ := fetchInstr_flat_implemented hflat himpl
  have hi : ∀ op, i ≠ .unimplemented op := by
    rintro op rfl
    have hundoc : op ∉ documentedOpcodes := by simpa [Instr.wf] using hwf
    have hbyte : op = s.mem.byteAt s.pc := hop
    exact hundoc (hbyte ▸ hdoc)
  rw [step_flat_of_fetch hflat hrun hfetch]
  refine exec_flat_next ?_ hi
  exact hflat

theorem step_flat_fault (hnot : s.mem.byteAt s.pc ∉ s.params.implemented ∨ s.mem.byteAt s.pc ∉ documentedOpcodes) :
    step s = .fault (.unimplementedOpcode (s.mem.byteAt s.pc) s.pc) := by
  by_cases himpl : s.mem.byteAt s.pc ∈ s.params.implemented
  · have hform := decodeOpcode_eq_unimplemented.mpr (hnot.resolve_left (not_not_intro himpl))
    rw [step_flat_of_op0 hflat himpl hform hrun, exec_unimplemented, BitVec.add_sub_cancel]
  · exact step_of_unimplemented_byte hrun (readByte_flat hflat s.pc) himpl

end FlatStep

/-! ## The statements -/

/-- Settles O22: the list is that of the flat state, and `exec_mirrors` answers for both backends. -/
theorem accessListDecidesTheVerdict : Obligations.AccessListDecidesTheVerdict := by
  intro i s horacle hi hagree
  obtain ⟨v, hv, _, hx⟩ := exec_mirrors (twin_withFlat horacle hagree) hi
  rw [accesses_withFlat] at hx
  change exec i s = _ at hx
  cases hcheck : checkAccesses s.params.readPolicy (accesses i s) s.oracle with
  | error f => exact hx.trans (by rw [hcheck]; rfl)
  | ok o => exact ⟨v, hv, hx.trans (by rw [hcheck]; rfl)⟩

/-- Settles O23: the same of `step_mirrors`, with the end of the step. -/
theorem stepAccessListDecidesTheStep : Obligations.StepAccessListDecidesTheStep := by
  intro s t i hrun horacle hi hagree hfetch
  obtain ⟨v, hv, _, hx⟩ := step_mirrors (twin_withFlat horacle hagree) hrun hfetch hi
  rw [stepAccesses_withFlat] at hx
  change step s = _ at hx
  cases hcheck : checkAccesses s.params.readPolicy (stepAccesses i s) s.oracle with
  | error f => exact hx.trans (by rw [hcheck]; rfl)
  | ok o =>
    rw [hcheck, except_ok_bind, finish_ok, endStep_under horacle] at hx
    dsimp only
    cases hmissing : missingWrite s.params.requireWrites o with
    | some e => exact hx.trans (by rw [hmissing])
    | none => exact ⟨v, hv, hx.trans (by rw [hmissing]; rfl)⟩

/-- Settles O24: a step that completes has checked its whole list, and an accepted list writes only what was registered. -/
theorem oracleStepRefinesFlatStep : Obligations.OracleStepRefinesFlatStep := by
  intro s t horacle hagree hstep
  have h := twin_withFlat horacle hagree
  obtain ⟨hrun, i, u, w, hfetch, hexec, _⟩ := step_next hstep
  obtain ⟨j, t', _, hflat, hunder⟩ := fetchInstr_mirrors h
  have hi : ∀ op, j ≠ .unimplemented op := by
    rintro op rfl
    change fetchInstr s = _ at hunder
    rw [hfetch] at hunder
    obtain ⟨o', _, heq⟩ := bind_eq_ok.mp hunder.symm
    cases heq
    cases hexec
  obtain ⟨v, hv, hmem, hx⟩ := step_mirrors h hrun hflat hi
  change step s = _ at hx
  rw [hstep] at hx
  cases hcheck : checkAccesses s.params.readPolicy (stepAccesses j s.withFlat) s.oracle with
  | error f =>
    rw [hcheck] at hx
    cases hx
  | ok o =>
    rw [hcheck, except_ok_bind, finish_ok, endStep_under horacle] at hx
    split at hx
    · cases hx
    · cases hx
      refine ⟨v, hv, rfl, rfl, rfl, rfl, rfl, rfl, fun a hne => ?_⟩
      rw [hmem] at hne ⊢
      exact expWrite_of_applyWrites_ne hcheck hne

/-- Settles O8: a documented and implemented byte is fetched as an instruction that completes, and any other faults by name. -/
theorem flatStepIsTotal : Obligations.FlatStepIsTotal := fun _ hrun hflat =>
  ⟨step_flat_next hrun hflat, step_flat_fault hrun hflat⟩

/-- Settles O11: `afterFault` leaves memory and parameters, and a flat step that faults has met a byte not implemented or not
documented. -/
theorem faultLeavesMemoryAlone : Obligations.FaultLeavesMemoryAlone := by
  intro s f hrun hstep
  rw [stepPort_of_fault hstep]
  refine ⟨afterFault_mem .., afterFault_params .., fun horacle => afterFault_oracle_oracle horacle f, fun hflat => ?_⟩
  refine ⟨s.mem.byteAt s.pc, s.pc, ?_, afterFault_oracle_flat hflat f⟩
  by_contra hne
  have hboth : s.mem.byteAt s.pc ∈ s.params.implemented ∧ s.mem.byteAt s.pc ∈ documentedOpcodes := by
    by_contra hnot
    have hfault := step_flat_fault hrun hflat (not_and_or.mp hnot)
    rw [hstep] at hfault
    cases hfault
    exact hne rfl
  obtain ⟨t, ht⟩ := step_flat_next hrun hflat hboth.1 hboth.2
  rw [hstep] at ht
  cases ht

end Sys2Proof.Machine
end

section
/-!
Who writes what (spec/10_state.md sections 1 and 2, spec/40_execution.md section 1): the lists of writers as one relation between an
instruction and the states before and after it, the fields that each shared operation can change, and the relation for every
instruction; then the statements it settles.
-/

namespace Sys2Proof.Machine

/-- Every register, flag and the memory that differ after `i` have `i` in their lists of writers. -/
structure ListedChanges (i : Instr) (s t : State) : Prop where
  sp : t.sp ≠ s.sp → mnemonicOf i ∈ ["TXS", "PHA", "PHP", "PLA", "PLP", "JSR", "RTS", "BRK", "RTI"]
  a : t.a ≠ s.a → mnemonicOf i ∈ ["LDA", "ADC", "SBC", "AND", "ORA", "EOR", "TXA", "TYA", "PLA"] ∨
    mnemonicOf i ∈ ["ASL", "LSR", "ROL", "ROR"] ∧ modeOf i = some .accumulator
  x : t.x ≠ s.x → mnemonicOf i ∈ ["LDX", "TAX", "TSX", "INX", "DEX"]
  y : t.y ≠ s.y → mnemonicOf i ∈ ["LDY", "TAY", "INY", "DEY"]
  flagC : t.p.c ≠ s.p.c → mnemonicOf i ∈
    ["ADC", "SBC", "CMP", "CPX", "CPY", "ASL", "LSR", "ROL", "ROR", "CLC", "SEC", "PLP", "RTI"]
  flagsZN : t.p.z ≠ s.p.z ∨ t.p.n ≠ s.p.n → mnemonicOf i ∈
    ["LDA", "LDX", "LDY", "TAX", "TAY", "TXA", "TYA", "TSX", "PLA", "ADC", "SBC", "AND", "ORA", "EOR", "CMP", "CPX",
     "CPY", "BIT", "ASL", "LSR", "ROL", "ROR", "INC", "DEC", "INX", "INY", "DEX", "DEY", "PLP", "RTI"]
  flagI : t.p.i ≠ s.p.i → mnemonicOf i ∈ ["SEI", "CLI", "BRK", "PLP", "RTI"]
  flagD : t.p.d ≠ s.p.d → mnemonicOf i ∈ ["SED", "CLD", "PLP", "RTI"]
  flagV : t.p.v ≠ s.p.v → mnemonicOf i ∈ ["ADC", "SBC", "BIT", "CLV", "PLP", "RTI"]
  pc : t.pc ≠ s.pc → mnemonicOf i ∈
    ["BCC", "BCS", "BEQ", "BNE", "BMI", "BPL", "BVC", "BVS", "JMP", "JSR", "RTS", "RTI", "BRK"]
  mem : t.mem ≠ s.mem → mnemonicOf i ∈ ["STA", "STX", "STY", "INC", "DEC", "JSR", "BRK", "PHA", "PHP"] ∨
    mnemonicOf i ∈ ["ASL", "LSR", "ROL", "ROR"] ∧ modeOf i ≠ some .accumulator

/-! ## The fields that an operation can change -/

section Changes
variable {s t : State}

theorem ReadOnly.changes (h : ReadOnly s t) : ∃ o, t = { s with oracle := o } := ⟨_, h.eq_oracle⟩

theorem writeByte_changes {a : Addr} {v : Byte} (h : writeByte a v s = .ok t) :
    ∃ m o, t = { s with mem := m, oracle := o } := by
  unfold writeByte at h
  split at h
  · cases h
    exact ⟨_, _, rfl⟩
  · split at h
    · cases h
    · cases h
      exact ⟨_, _, rfl⟩

theorem push_changes {v : Byte} (h : push v s = .ok t) :
    ∃ m o, t = { s with mem := m, oracle := o, sp := s.sp - 1 } := by
  simp only [push, bind_eq_ok] at h
  obtain ⟨u, hw, heq⟩ := h
  obtain ⟨m, o, rfl⟩ := writeByte_changes hw
  cases heq
  exact ⟨m, o, rfl⟩

theorem pushWord_changes {w : Addr} (h : pushWord w s = .ok t) :
    ∃ m o, t = { s with mem := m, oracle := o, sp := s.sp - 1 - 1 } := by
  simp only [pushWord, bind_eq_ok] at h
  obtain ⟨u, hhi, hlo⟩ := h
  obtain ⟨_, _, rfl⟩ := push_changes hhi
  exact push_changes hlo

theorem pull_changes {v : Byte} (h : pull s = .ok (v, t)) : ∃ o, t = { s with oracle := o, sp := s.sp + 1 } :=
  (readByte_readOnly h).changes

theorem pullWord_changes {w : Addr} (h : pullWord s = .ok (w, t)) :
    ∃ o, t = { s with oracle := o, sp := s.sp + 1 + 1 } := by
  simp only [pullWord, bind_eq_ok, Prod.exists] at h
  obtain ⟨_, _, hlo, _, _, hhi, heq⟩ := h
  cases heq
  obtain ⟨_, rfl⟩ := pull_changes hlo
  exact pull_changes hhi

theorem takeBreak_changes (h : takeBreak s = .ok t) : ∃ m o sp pc,
    t = { s with mem := m, oracle := o, sp := sp, p := { s.p with i := true }, pc := pc } := by
  simp only [takeBreak, bind_eq_ok, Prod.exists] at h
  obtain ⟨_, hpc, _, hp, _, _, hlo, _, _, hhi, heq⟩ := h
  obtain ⟨_, _, rfl⟩ := pushWord_changes hpc
  obtain ⟨_, _, rfl⟩ := push_changes hp
  obtain ⟨_, rfl⟩ := (readByte_readOnly hlo).changes
  obtain ⟨_, rfl⟩ := (readByte_readOnly hhi).changes
  cases heq
  exact ⟨_, _, _, _, rfl⟩

theorem returnFromBreak_changes (h : returnFromBreak s = .ok t) :
    ∃ o sp p pc, t = { s with oracle := o, sp := sp, p := p, pc := pc } := by
  simp only [returnFromBreak, bind_eq_ok, Prod.exists] at h
  obtain ⟨_, _, hp, _, _, hpc, heq⟩ := h
  obtain ⟨_, rfl⟩ := pull_changes hp
  obtain ⟨_, rfl⟩ := pullWord_changes hpc
  cases heq
  exact ⟨_, _, _, _, rfl⟩

theorem readThen_changes {effect : Byte → State → State} {src : Source} (h : readThen effect src s = .ok t) :
    ∃ v o, t = effect v { s with oracle := o } := by
  simp only [readThen, bind_eq_ok, Prod.exists] at h
  obtain ⟨v, _, hread, heq⟩ := h
  obtain ⟨o, rfl⟩ := (readSource_readOnly hread).changes
  cases heq
  exact ⟨v, o, rfl⟩

/-- Every mode but Accumulator resolves to memory. -/
theorem resolve_ok_mem {mode : LocMode} (hmode : mode ≠ .accumulator) {l : Loc} (h : resolve mode s = .ok (l, t)) :
    ∃ a, l = .mem a := by
  cases mode with
  | accumulator => exact absurd rfl hmode
  | indirectX b | indirectY b =>
    simp only [resolve, bind_eq_ok, Prod.exists] at h
    obtain ⟨_, _, _, heq⟩ := h
    cases heq
    exact ⟨_, rfl⟩
  | _ =>
    cases h
    exact ⟨_, rfl⟩

theorem store_changes {mode : LocMode} (hmode : mode ≠ .accumulator) {v : Byte} (h : store mode v s = .ok t) :
    ∃ m o, t = { s with mem := m, oracle := o } := by
  simp only [store, bind_eq_ok, Prod.exists] at h
  obtain ⟨l, _, hres, hw⟩ := h
  obtain ⟨a, rfl⟩ := resolve_ok_mem hmode hres
  obtain ⟨_, rfl⟩ := (resolve_readOnly hres).changes
  obtain ⟨m, o, rfl⟩ := writeByte_changes hw
  exact ⟨m, o, rfl⟩

theorem updateOperand_changes {f : Byte → Bool → Shifted} {setP : Shifted → Status → Status} {mode : LocMode}
    (hmode : mode ≠ .accumulator) (h : updateOperand f setP mode s = .ok t) :
    ∃ m o r, t = { s with mem := m, oracle := o, p := setP (f r s.p.c) s.p } := by
  simp only [updateOperand, bind_eq_ok, Prod.exists] at h
  obtain ⟨l, _, hres, r, _, hread, _, hw, heq⟩ := h
  obtain ⟨a, rfl⟩ := resolve_ok_mem hmode hres
  obtain ⟨_, rfl⟩ := (resolve_readOnly hres).changes
  obtain ⟨_, rfl⟩ := (readLoc_readOnly hread).changes
  obtain ⟨_, _, rfl⟩ := writeByte_changes hw
  cases heq
  exact ⟨_, _, r, rfl⟩

end Changes

/-! ## The writers, a mnemonic's operation at a time -/

section Listed
variable {i : Instr} {s t : State} {src : Source} {mode : LocMode}

theorem listed_of_readThen {effect : Byte → State → State}
    (heffect : ∀ v o, ListedChanges i s (effect v { s with oracle := o })) (h : readThen effect src s = .ok t) :
    ListedChanges i s t := by
  obtain ⟨v, o, rfl⟩ := readThen_changes h
  exact heffect v o

theorem lda_listed (hn : mnemonicOf i = "LDA") (h : lda src s = .ok t) : ListedChanges i s t :=
  listed_of_readThen (effect := fun v s => { s with a := v, p := s.p.setZN v })
    (fun v o => by constructor <;> simp [hn]) h

theorem ldx_listed (hn : mnemonicOf i = "LDX") (h : ldx src s = .ok t) : ListedChanges i s t :=
  listed_of_readThen (effect := fun v s => { s with x := v, p := s.p.setZN v })
    (fun v o => by constructor <;> simp [hn]) h

theorem ldy_listed (hn : mnemonicOf i = "LDY") (h : ldy src s = .ok t) : ListedChanges i s t :=
  listed_of_readThen (effect := fun v s => { s with y := v, p := s.p.setZN v })
    (fun v o => by constructor <;> simp [hn]) h

theorem adder_listed (hn : mnemonicOf i ∈ ["ADC", "SBC"]) (m : Byte) (o : Oracle) :
    ListedChanges i s (addToA m { s with oracle := o }) := by
  rcases List.mem_pair.mp hn with hn | hn <;> constructor <;> simp [hn, addToA]

theorem adc_listed (hn : mnemonicOf i = "ADC") (h : adc src s = .ok t) : ListedChanges i s t :=
  listed_of_readThen (effect := addToA) (adder_listed (by simp [hn])) h

theorem sbc_listed (hn : mnemonicOf i = "SBC") (h : sbc src s = .ok t) : ListedChanges i s t :=
  listed_of_readThen (effect := subtractFromA) (fun m => adder_listed (by simp [hn]) (~~~m)) h

theorem logic_listed {g : Byte → Byte → Byte} (hn : mnemonicOf i ∈ ["AND", "ORA", "EOR"]) (h : logic g src s = .ok t) :
    ListedChanges i s t :=
  listed_of_readThen (effect := combineWithA g) (fun m o => by
    simp only [List.mem_cons, List.not_mem_nil, or_false] at hn
    rcases hn with hn | hn | hn <;> constructor <;> simp [hn, combineWithA]) h

theorem compare_listed {reg : State → Byte} (hn : mnemonicOf i ∈ ["CMP", "CPX", "CPY"])
    (h : readThen (compareWith reg) src s = .ok t) : ListedChanges i s t :=
  listed_of_readThen (fun m o => by
    simp only [List.mem_cons, List.not_mem_nil, or_false] at hn
    rcases hn with hn | hn | hn <;> constructor <;> simp [hn, compareWith]) h

theorem bitOp_listed (hn : mnemonicOf i = "BIT") (h : bitOp src s = .ok t) : ListedChanges i s t :=
  listed_of_readThen (effect := testBits) (fun m o => by constructor <;> simp [hn, testBits]) h

theorem store_listed (hn : mnemonicOf i ∈ ["STA", "STX", "STY"]) (hmode : mode ≠ .accumulator) {v : Byte}
    (h : store mode v s = .ok t) : ListedChanges i s t := by
  obtain ⟨m, o, rfl⟩ := store_changes hmode h
  simp only [List.mem_cons, List.not_mem_nil, or_false] at hn
  rcases hn with hn | hn | hn <;> constructor <;> simp [hn]

theorem shift_memory_listed {f : Byte → Bool → Shifted} (hn : mnemonicOf i ∈ ["ASL", "LSR", "ROL", "ROR"])
    (hacc : modeOf i ≠ some .accumulator) (hmode : mode ≠ .accumulator) (h : shift f mode s = .ok t) :
    ListedChanges i s t := by
  obtain ⟨m, o, r, rfl⟩ := updateOperand_changes (setP := fun x p => p.setShift x) hmode h
  simp only [List.mem_cons, List.not_mem_nil, or_false] at hn
  rcases hn with hn | hn | hn | hn <;> constructor <;> simp [hn, hacc]

theorem shift_accumulator_listed {f : Byte → Bool → Shifted} (hn : mnemonicOf i ∈ ["ASL", "LSR", "ROL", "ROR"])
    (hacc : modeOf i = some .accumulator) (h : shift f .accumulator s = .ok t) : ListedChanges i s t := by
  obtain rfl : { s with a := (f s.a s.p.c).r, p := s.p.setShift (f s.a s.p.c) } = t := Except.ok.inj h
  simp only [List.mem_cons, List.not_mem_nil, or_false] at hn
  rcases hn with hn | hn | hn | hn <;> constructor <;> simp [hn, hacc]

theorem bump_listed {g : Byte → Byte} (hn : mnemonicOf i ∈ ["INC", "DEC"]) (hmode : mode ≠ .accumulator)
    (h : bump g mode s = .ok t) : ListedChanges i s t := by
  obtain ⟨m, o, r, rfl⟩ :=
    updateOperand_changes (f := fun v c => ⟨g v, c⟩) (setP := fun x p => p.setZN x.r) hmode h
  rcases List.mem_pair.mp hn with hn | hn <;> constructor <;> simp [hn]

theorem branch_listed (hn : mnemonicOf i ∈ ["BCC", "BCS", "BEQ", "BNE", "BMI", "BPL", "BVC", "BVS"]) (cond : Bool)
    (off : Byte) (s : State) : ListedChanges i s (branch cond off s) := by
  rw [branch_eq]
  constructor
  case pc => exact fun _ => List.mem_append_left ["JMP", "JSR", "RTS", "RTI", "BRK"] hn
  all_goals simp

theorem jumpIndirect_listed (hn : mnemonicOf i = "JMP") {p : Addr} (h : jumpIndirect p s = .ok t) : ListedChanges i s t := by
  simp only [jumpIndirect, bind_eq_ok, Prod.exists] at h
  obtain ⟨_, _, hread, heq⟩ := h
  obtain ⟨o, rfl⟩ := (indirectTarget_readOnly hread).changes
  cases heq
  constructor <;> simp [hn]

theorem callTo_listed (hn : mnemonicOf i = "JSR") {w : Addr} (h : callTo w s = .ok t) : ListedChanges i s t := by
  simp only [callTo, bind_eq_ok] at h
  obtain ⟨_, hpush, heq⟩ := h
  obtain ⟨m, o, rfl⟩ := pushWord_changes hpush
  cases heq
  constructor <;> simp [hn]

theorem returnFromCall_listed (hn : mnemonicOf i = "RTS") (h : returnFromCall s = .ok t) : ListedChanges i s t := by
  simp only [returnFromCall, bind_eq_ok, Prod.exists] at h
  obtain ⟨_, _, hpull, heq⟩ := h
  obtain ⟨o, rfl⟩ := pullWord_changes hpull
  cases heq
  constructor <;> simp [hn]

theorem takeBreak_listed (hn : mnemonicOf i = "BRK") (h : takeBreak s = .ok t) : ListedChanges i s t := by
  obtain ⟨m, o, sp, pc, rfl⟩ := takeBreak_changes h
  constructor <;> simp [hn]

theorem returnFromBreak_listed (hn : mnemonicOf i = "RTI") (h : returnFromBreak s = .ok t) : ListedChanges i s t := by
  obtain ⟨o, sp, p, pc, rfl⟩ := returnFromBreak_changes h
  constructor <;> simp [hn]

theorem push_listed (hn : mnemonicOf i ∈ ["PHA", "PHP"]) {v : Byte} (h : push v s = .ok t) : ListedChanges i s t := by
  obtain ⟨m, o, rfl⟩ := push_changes h
  rcases List.mem_pair.mp hn with hn | hn <;> constructor <;> simp [hn]

theorem pullA_listed (hn : mnemonicOf i = "PLA") (h : pullA s = .ok t) : ListedChanges i s t := by
  simp only [pullA, bind_eq_ok, Prod.exists] at h
  obtain ⟨_, _, hpull, heq⟩ := h
  obtain ⟨o, rfl⟩ := pull_changes hpull
  cases heq
  constructor <;> simp [hn]

theorem pullP_listed (hn : mnemonicOf i = "PLP") (h : pullP s = .ok t) : ListedChanges i s t := by
  simp only [pullP, bind_eq_ok, Prod.exists] at h
  obtain ⟨_, _, hpull, heq⟩ := h
  obtain ⟨o, rfl⟩ := pull_changes hpull
  cases heq
  constructor <;> simp [hn]

/-- Every instruction that completes has changed only what lists it. -/
theorem exec_listed (h : exec i s = .next t) : ListedChanges i s t := by
  cases i with
  | ldaImm => exact lda_listed (src := .immediate _) (by simp) (finish_eq_next.mp h)
  | ldaZp | ldaZpX | ldaAbs | ldaAbsX | ldaAbsY | ldaIndX | ldaIndY =>
    exact lda_listed (by simp) (finish_eq_next.mp h)
  | ldxImm => exact ldx_listed (src := .immediate _) (by simp) (finish_eq_next.mp h)
  | ldxZp | ldxZpY | ldxAbs | ldxAbsY => exact ldx_listed (by simp) (finish_eq_next.mp h)
  | ldyImm => exact ldy_listed (src := .immediate _) (by simp) (finish_eq_next.mp h)
  | ldyZp | ldyZpX | ldyAbs | ldyAbsX => exact ldy_listed (by simp) (finish_eq_next.mp h)
  | adcImm => exact adc_listed (src := .immediate _) (by simp) (finish_eq_next.mp h)
  | adcZp | adcZpX | adcAbs | adcAbsX | adcAbsY | adcIndX | adcIndY =>
    exact adc_listed (by simp) (finish_eq_next.mp h)
  | sbcImm => exact sbc_listed (src := .immediate _) (by simp) (finish_eq_next.mp h)
  | sbcZp | sbcZpX | sbcAbs | sbcAbsX | sbcAbsY | sbcIndX | sbcIndY =>
    exact sbc_listed (by simp) (finish_eq_next.mp h)
  | andImm | oraImm | eorImm => exact logic_listed (src := .immediate _) (by simp) (finish_eq_next.mp h)
  | andZp | andZpX | andAbs | andAbsX | andAbsY | andIndX | andIndY | oraZp | oraZpX | oraAbs | oraAbsX
  | oraAbsY | oraIndX | oraIndY | eorZp | eorZpX | eorAbs | eorAbsX | eorAbsY | eorIndX | eorIndY =>
    exact logic_listed (by simp) (finish_eq_next.mp h)
  | cmpImm => exact compare_listed (reg := State.a) (src := .immediate _) (by simp) (finish_eq_next.mp h)
  | cmpZp | cmpZpX | cmpAbs | cmpAbsX | cmpAbsY | cmpIndX | cmpIndY =>
    exact compare_listed (reg := State.a) (src := .loc _) (by simp) (finish_eq_next.mp h)
  | cpxImm => exact compare_listed (reg := State.x) (src := .immediate _) (by simp) (finish_eq_next.mp h)
  | cpxZp | cpxAbs => exact compare_listed (reg := State.x) (src := .loc _) (by simp) (finish_eq_next.mp h)
  | cpyImm => exact compare_listed (reg := State.y) (src := .immediate _) (by simp) (finish_eq_next.mp h)
  | cpyZp | cpyAbs => exact compare_listed (reg := State.y) (src := .loc _) (by simp) (finish_eq_next.mp h)
  | bitZp | bitAbs => exact bitOp_listed (by simp) (finish_eq_next.mp h)
  | staZp | staZpX | staAbs | staAbsX | staAbsY | staIndX | staIndY | stxZp | stxZpY | stxAbs | styZp | styZpX
  | styAbs => exact store_listed (by simp) (by simp) (finish_eq_next.mp h)
  | aslA | lsrA | rolA | rorA => exact shift_accumulator_listed (by simp) (by simp) (finish_eq_next.mp h)
  | aslZp | aslZpX | aslAbs | aslAbsX | lsrZp | lsrZpX | lsrAbs | lsrAbsX | rolZp | rolZpX | rolAbs | rolAbsX
  | rorZp | rorZpX | rorAbs | rorAbsX =>
    exact shift_memory_listed (by simp) (by simp) (by simp) (finish_eq_next.mp h)
  | incZp | incZpX | incAbs | incAbsX | decZp | decZpX | decAbs | decAbsX =>
    exact bump_listed (by simp) (by simp) (finish_eq_next.mp h)
  | bcc | bcs | beq | bne | bmi | bpl | bvc | bvs =>
    cases h
    exact branch_listed (by simp) _ _ s
  | jmpInd => exact jumpIndirect_listed (by simp) (finish_eq_next.mp h)
  | jsr => exact callTo_listed (by simp) (finish_eq_next.mp h)
  | rts => exact returnFromCall_listed (by simp) (finish_eq_next.mp h)
  | rti => exact returnFromBreak_listed (by simp) (finish_eq_next.mp h)
  | brk => exact takeBreak_listed (by simp) (finish_eq_next.mp h)
  | pha | php => exact push_listed (by simp) (finish_eq_next.mp h)
  | pla => exact pullA_listed (by simp) (finish_eq_next.mp h)
  | plp => exact pullP_listed (by simp) (finish_eq_next.mp h)
  | unimplemented op => cases h
  | jmpAbs | tax | tay | txa | tya | tsx | txs | clc | sec | cli | sei | cld | sed | clv | inx | iny | dex | dey | nop =>
    cases h
    constructor <;> simp

end Listed

/-! ## The statements -/

/-- Settles O57: its clauses are those of `exec_listed` about SP, A, X and Y. -/
theorem onlyListedInstructionsWriteARegister : Obligations.OnlyListedInstructionsWriteARegister := fun _ _ _ h =>
  have hlisted := exec_listed h
  ⟨hlisted.sp, hlisted.a, hlisted.x, hlisted.y⟩

/-- Settles O58: its clauses are those of `exec_listed` about the flags. -/
theorem onlyListedInstructionsWriteAFlag : Obligations.OnlyListedInstructionsWriteAFlag := fun _ _ _ h =>
  have hlisted := exec_listed h
  ⟨hlisted.flagC, hlisted.flagsZN, hlisted.flagI, hlisted.flagD, hlisted.flagV⟩

/-- Settles O59: its clauses are those of `exec_listed` about PC and memory. -/
theorem onlyListedInstructionsWritePCOrMemory : Obligations.OnlyListedInstructionsWritePCOrMemory := fun _ _ _ h =>
  have hlisted := exec_listed h
  ⟨hlisted.pc, hlisted.mem⟩

end Sys2Proof.Machine
end

section
/-!
The end of a run (spec/70_reset_and_hazards.md R334, R335): a run that has ended well ends so at every larger number of steps, and at a
smaller number it has ended there or goes on; then the statement they settle.
-/

namespace Sys2Proof.Machine

section RunTo
variable {e : Addr} {s t : State}

theorem runTo_at_end (hend : s.pc = e ∧ s.run = .running) (fuel : Nat) : runTo e fuel s = .well s := by
  rw [runTo.eq_def]
  simp [hend]

theorem runTo_zero (hend : ¬(s.pc = e ∧ s.run = .running)) : runTo e 0 s = .goesOn s := by
  rw [runTo.eq_def]
  simp [hend]

section NotAtEnd
variable (hend : ¬(s.pc = e ∧ s.run = .running)) (fuel : Nat)
include hend

theorem runTo_of_next {u : State} (hstep : step s = .next u) : runTo e (fuel + 1) s = runTo e fuel u := by
  rw [runTo.eq_def]
  simp [hend, hstep]

theorem runTo_of_fault {f : Fault} (hstep : step s = .fault f) : runTo e (fuel + 1) s = .badly f := by
  rw [runTo.eq_def]
  simp [hend, hstep]

theorem runTo_of_refused {r : Refusal} (hstep : step s = .refused r) : runTo e (fuel + 1) s = .notTaken r := by
  rw [runTo.eq_def]
  simp [hend, hstep]

/-- A run that ends well later has a next state. -/
theorem step_next_of_runTo_well (h : runTo e (fuel + 1) s = .well t) : ∃ u, step s = .next u ∧ runTo e fuel u = .well t := by
  cases hstep : step s with
  | next u => exact ⟨u, rfl, runTo_of_next hend fuel hstep ▸ h⟩
  | fault f =>
    rw [runTo_of_fault hend fuel hstep] at h
    cases h
  | refused r =>
    rw [runTo_of_refused hend fuel hstep] at h
    cases h

end NotAtEnd

/-- A run ends well in a running state at `END_PC`. -/
theorem runTo_well_at_end {fuel : Nat} (h : runTo e fuel s = .well t) : t.pc = e ∧ t.run = .running := by
  induction fuel generalizing s with
  | zero =>
    by_cases hend : s.pc = e ∧ s.run = .running
    · rw [runTo_at_end hend] at h
      cases h
      exact hend
    · rw [runTo_zero hend] at h
      cases h
  | succ fuel ih =>
    by_cases hend : s.pc = e ∧ s.run = .running
    · rw [runTo_at_end hend] at h
      cases h
      exact hend
    · obtain ⟨u, _, hu⟩ := step_next_of_runTo_well hend fuel h
      exact ih hu

/-- A run that ends well with some number of steps ends in the same state with any other, or goes on. -/
theorem runTo_of_well {fuel : Nat} (h : runTo e fuel s = .well t) (k : Nat) :
    runTo e k s = .well t ∨ ∃ u, runTo e k s = .goesOn u := by
  induction fuel generalizing s k with
  | zero =>
    by_cases hend : s.pc = e ∧ s.run = .running
    · exact .inl ((runTo_at_end hend k).trans ((runTo_at_end hend 0).symm.trans h))
    · rw [runTo_zero hend] at h
      cases h
  | succ fuel ih =>
    by_cases hend : s.pc = e ∧ s.run = .running
    · exact .inl ((runTo_at_end hend k).trans ((runTo_at_end hend (fuel + 1)).symm.trans h))
    · cases k with
      | zero => exact .inr ⟨s, runTo_zero hend⟩
      | succ k =>
        obtain ⟨u, hstep, hu⟩ := step_next_of_runTo_well hend fuel h
        rw [runTo_of_next hend k hstep]
        exact ih hu k

end RunTo

/-! ## The statement -/

/-- Settles O60: at any number of steps a run that ends well is in its end state or goes on, so no other end is left. -/
theorem runEndIsUnique : Obligations.RunEndIsUnique := by
  rintro e s t ⟨fuel, h⟩
  obtain ⟨hpc, hrun⟩ := runTo_well_at_end h
  refine ⟨?_, hpc, hrun, fun k f hbad => ?_⟩
  · rintro t' ⟨k, hk⟩
    rcases runTo_of_well h k with hwell | ⟨u, hon⟩
    · rw [hk] at hwell
      cases hwell
      rfl
    · rw [hk] at hon
      cases hon
  · rcases runTo_of_well h k with hwell | ⟨u, hon⟩
    · rw [hbad] at hwell
      cases hwell
    · rw [hbad] at hon
      cases hon

end Sys2Proof.Machine
end
